-- ==== Sys2Proof/Word.lean ====
section
/-! DEFINITION. The bit-vector widths the spec names: command words, bytes, levels, targets, nibbles. -/

namespace Sys2Proof

/-- A host command word, and ERRINFO (R60, R29). -/
abbrev Word := BitVec 64

/-- A segment byte, a packed brightness byte, a frame byte (R46). -/
abbrev Byte := BitVec 8

/-- A 3-bit brightness level, 0..7 (R64). -/
abbrev Level := BitVec 3

/-- The 4-bit target field `TGT`: 0 is ALL, 1..15 a digit or LED number (R11). -/
abbrev Target := BitVec 4

/-- A nibble or a 4-bit chip address (R65). -/
abbrev Nibble := BitVec 4

end Sys2Proof
end

