-- ==== Sys2Proof/Syntax.lean ====
section
/-! DEFINITION. The commands of BBSTC, one constructor per row of the opcode table (R69), and the segment wiring they carry. -/

namespace Sys2Proof

/-- The seven numeral segments. The decimal point, the eighth segment, is kept apart (R80). -/
inductive Segment where
  | a | b | c | d | e | f | g
  deriving DecidableEq, Repr

/-- The segment-to-bit wiring `WIRE[0..7]`: the bit index of each of a..g and dp (R26, R67). -/
structure Wiring where
  a : BitVec 3
  b : BitVec 3
  c : BitVec 3
  d : BitVec 3
  e : BitVec 3
  f : BitVec 3
  g : BitVec 3
  dp : BitVec 3
  deriving DecidableEq, Repr

/-- A host command. Constructors follow R69's order and operands follow R64 to R68 and R77. -/
inductive Instr where
  /-- SEG_LOOKUP `NIB` (R86). -/
  | segLookup (nib : Nibble)
  /-- WRITE_FRAME `FB[0], FB[1], …`: 1 to 7 bytes, `FB[0]` sent first (R98). -/
  | writeFrame (bytes : List Byte)
  /-- READ_BYTE `ADDR` (R102). -/
  | readByte (addr : Nibble)
  /-- INIT (R116). -/
  | init
  /-- INIT_WIRING `Wv` (R117). -/
  | initWiring (wv : Wiring)
  /-- DISPLAY_ON (R118). -/
  | displayOn
  /-- DISPLAY_OFF (R119). -/
  | displayOff
  /-- SET_BRIGHTNESS `TGT, LVL` (R120). -/
  | setBrightness (tgt : Target) (lvl : Level)
  /-- CLEAR (R121). -/
  | clear
  /-- SET_RAW `TGT, MASK` (R122). -/
  | setRaw (tgt : Target) (mask : Byte)
  /-- SET_RAW_ALL `ARR[0], …, ARR[5]` (R123). -/
  | setRawAll (m1 m2 m3 m4 m5 m6 : Byte)
  /-- SHOW_DEC `VAL` (R124). -/
  | showDec (val : BitVec 32)
  /-- SHOW_HEX `VAL` (R125). -/
  | showHex (val : BitVec 32)
  /-- SET_DP `TGT, ON` (R126). -/
  | setDp (tgt : Target) (on : Bool)
  /-- SET_LED_BRIGHTNESS `TGT, LVL` (R127). -/
  | setLedBrightness (tgt : Target) (lvl : Level)
  /-- SET_LED_STATE `TGT, ON` (R128). -/
  | setLedState (tgt : Target) (on : Bool)
  deriving DecidableEq, Repr

/-- The sixteen assigned opcodes (R69). -/
inductive Opcode where
  | segLookup | writeFrame | readByte | init | initWiring | displayOn | displayOff
  | setBrightness | clear | setRaw | setRawAll | showDec | showHex | setDp
  | setLedBrightness | setLedState
  deriving DecidableEq, Repr

end Sys2Proof
end

