-- ==== Sys2Proof/WellFormed.lean ====
section
/-! DEFINITION. Which terms of Instr are commands: only WRITE_FRAME's length needs a check, every other operand fits its field by its type. -/

namespace Sys2Proof

/-- A frame has 1 to 7 bytes (R62, R97). -/
abbrev FrameLength (bytes : List Byte) : Prop := 1 ≤ bytes.length ∧ bytes.length ≤ 7

/-- The commands that some command word spells (R62, R70). -/
def wellFormed (i : Instr) : Bool :=
  match i with
  | .writeFrame bytes => decide (FrameLength bytes)
  | .segLookup _ => true
  | .readByte _ => true
  | .init => true
  | .initWiring _ => true
  | .displayOn => true
  | .displayOff => true
  | .setBrightness _ _ => true
  | .clear => true
  | .setRaw _ _ => true
  | .setRawAll _ _ _ _ _ _ => true
  | .showDec _ => true
  | .showHex _ => true
  | .setDp _ _ => true
  | .setLedBrightness _ _ => true
  | .setLedState _ _ => true

/-- `wellFormed` as a proposition. -/
abbrev WellFormed (i : Instr) : Prop := wellFormed i = true

end Sys2Proof
end

