-- ==== Sys2Proof/Decode.lean ====
section
/-! DEFINITION. The command word's decoder, total over all 2^64 words (R71), and the encoder written from the same tables (R60 to R70). -/

namespace Sys2Proof

/-- Why a word is no command, by name (R71). -/
inductive DecodeError where
  /-- unassigned opcode (R153) -/
  | illegalOp
  /-- a reserved-zero bit set, or WRITE_FRAME with `LEN = 0` (R154) -/
  | illegalOperand
  deriving DecidableEq, Repr

/-- The opcode map (R69). -/
def opcodeBits : Opcode → BitVec 5
  | .segLookup => 0x01
  | .writeFrame => 0x02
  | .readByte => 0x03
  | .init => 0x04
  | .initWiring => 0x05
  | .displayOn => 0x06
  | .displayOff => 0x07
  | .setBrightness => 0x08
  | .clear => 0x09
  | .setRaw => 0x0A
  | .setRawAll => 0x0B
  | .showDec => 0x0C
  | .showHex => 0x0D
  | .setDp => 0x0E
  | .setLedBrightness => 0x0F
  | .setLedState => 0x10

/-- The opcode of R69 with these bits, if one is assigned. -/
def opcodeOf? (b : BitVec 5) : Option Opcode :=
  match b.toNat with
  | 0x01 => some .segLookup
  | 0x02 => some .writeFrame
  | 0x03 => some .readByte
  | 0x04 => some .init
  | 0x05 => some .initWiring
  | 0x06 => some .displayOn
  | 0x07 => some .displayOff
  | 0x08 => some .setBrightness
  | 0x09 => some .clear
  | 0x0A => some .setRaw
  | 0x0B => some .setRawAll
  | 0x0C => some .showDec
  | 0x0D => some .showHex
  | 0x0E => some .setDp
  | 0x0F => some .setLedBrightness
  | 0x10 => some .setLedState
  | _ => none

/-- `OP = w[63:59]` (R60). -/
def opField (w : Word) : BitVec 5 := w.extractLsb' 59 5

/-- `LEN = w[58:56]` (R60). -/
def lenField (w : Word) : BitVec 3 := w.extractLsb' 56 3

/-- `D = w[55:0]` (R60). -/
def dField (w : Word) : BitVec 56 := w.extractLsb' 0 56

/-- Byte `k` of `D` (R44). -/
def dByte (w : Word) (k : Nat) : Byte := w.extractLsb' (8 * k) 8

/-- The reserved-zero mask `resv(op, LEN)` (R70). -/
def resvMask (op : Opcode) (len : BitVec 3) : Word :=
  match op with
  | .segLookup => 0x07FFFFFFFFFFFFF0
  | .readByte => 0x07FFFFFFFFFFFFF0
  | .writeFrame => 0x00FFFFFFFFFFFFFF &&& ~~~((1#64 <<< (8 * len.toNat)) - 1#64)
  | .init => 0x07FFFFFFFFFFFFFF
  | .displayOn => 0x07FFFFFFFFFFFFFF
  | .displayOff => 0x07FFFFFFFFFFFFFF
  | .clear => 0x07FFFFFFFFFFFFFF
  | .initWiring => 0x07FFFFFFFF000000
  | .setBrightness => 0x07FFFFFFFFFFFF80
  | .setLedBrightness => 0x07FFFFFFFFFFFF80
  | .setRaw => 0x07FFFFFFFFFF00F0
  | .setRawAll => 0x07FF000000000000
  | .showDec => 0x07FFFFFF00000000
  | .showHex => 0x07FFFFFF00000000
  | .setDp => 0x07FFFFFFFFFFFF70
  | .setLedState => 0x07FFFFFFFFFFFF70

/-- `TGT = D[3:0]` (R64). -/
def tgtField (w : Word) : Target := w.extractLsb' 0 4

/-- `LVL = D[6:4]` (R64). -/
def lvlField (w : Word) : Level := w.extractLsb' 4 3

/-- `ON = D[7]` (R64). -/
def onField (w : Word) : Bool := w.getLsbD 7

/-- `MASK = D[15:8]` (R64). -/
def maskField (w : Word) : Byte := w.extractLsb' 8 8

/-- `VAL = D[31:0]` (R65). -/
def valField (w : Word) : BitVec 32 := w.extractLsb' 0 32

/-- `NIB = D[3:0]` and `ADDR = D[3:0]` (R65). -/
def nibField (w : Word) : Nibble := w.extractLsb' 0 4

/-- `Wv[s] = D[3s+2:3s]`, in the order a, b, c, d, e, f, g, dp (R67). -/
def wiringField (w : Word) : Wiring :=
  { a := w.extractLsb' 0 3, b := w.extractLsb' 3 3, c := w.extractLsb' 6 3, d := w.extractLsb' 9 3,
    e := w.extractLsb' 12 3, f := w.extractLsb' 15 3, g := w.extractLsb' 18 3, dp := w.extractLsb' 21 3 }

/-- `FB[0], …, FB[LEN-1]` (R68). -/
def frameField (w : Word) : List Byte := (List.range (lenField w).toNat).map (dByte w)

/-- The command an opcode and its operand view spell (R63 to R68). -/
def instrOf (op : Opcode) (w : Word) : Instr :=
  match op with
  | .segLookup => .segLookup (nibField w)
  | .writeFrame => .writeFrame (frameField w)
  | .readByte => .readByte (nibField w)
  | .init => .init
  | .initWiring => .initWiring (wiringField w)
  | .displayOn => .displayOn
  | .displayOff => .displayOff
  | .setBrightness => .setBrightness (tgtField w) (lvlField w)
  | .clear => .clear
  | .setRaw => .setRaw (tgtField w) (maskField w)
  | .setRawAll => .setRawAll (dByte w 0) (dByte w 1) (dByte w 2) (dByte w 3) (dByte w 4) (dByte w 5)
  | .showDec => .showDec (valField w)
  | .showHex => .showHex (valField w)
  | .setDp => .setDp (tgtField w) (onField w)
  | .setLedBrightness => .setLedBrightness (tgtField w) (lvlField w)
  | .setLedState => .setLedState (tgtField w) (onField w)

/-- Whether a word of an assigned opcode breaks R154: a reserved-zero bit is set, or WRITE_FRAME has `LEN = 0`. -/
def operandIllegal (op : Opcode) (w : Word) : Bool :=
  (op = .writeFrame && lenField w = 0#3) || (w &&& resvMask op (lenField w)) ≠ 0#64

/-- Decode a command word in the order of R71's checks: the opcode first, then the operands. -/
def decode (w : Word) : Except DecodeError Instr :=
  match opcodeOf? (opField w) with
  | none => .error .illegalOp
  | some op => if operandIllegal op w then .error .illegalOperand else .ok (instrOf op w)

/-! The encoder. -/

/-- A command's opcode (R69). -/
def opcodeOf (i : Instr) : Opcode :=
  match i with
  | .segLookup _ => .segLookup
  | .writeFrame _ => .writeFrame
  | .readByte _ => .readByte
  | .init => .init
  | .initWiring _ => .initWiring
  | .displayOn => .displayOn
  | .displayOff => .displayOff
  | .setBrightness _ _ => .setBrightness
  | .clear => .clear
  | .setRaw _ _ => .setRaw
  | .setRawAll _ _ _ _ _ _ => .setRawAll
  | .showDec _ => .showDec
  | .showHex _ => .showHex
  | .setDp _ _ => .setDp
  | .setLedBrightness _ _ => .setLedBrightness
  | .setLedState _ _ => .setLedState

/-- A byte list as `D`, element `k` in byte `k` (R44). -/
def bytesToD (bytes : List Byte) : BitVec 56 :=
  bytes.foldr (fun b acc => (acc <<< 8) ||| b.setWidth 56) 0#56

/-- A command's operand field `D` (R64 to R68). -/
def operandD (i : Instr) : BitVec 56 :=
  match i with
  | .segLookup nib => nib.setWidth 56
  | .writeFrame bytes => bytesToD bytes
  | .readByte addr => addr.setWidth 56
  | .init => 0
  | .initWiring wv => (wv.dp ++ wv.g ++ wv.f ++ wv.e ++ wv.d ++ wv.c ++ wv.b ++ wv.a).setWidth 56
  | .displayOn => 0
  | .displayOff => 0
  | .setBrightness tgt lvl => (lvl ++ tgt).setWidth 56
  | .clear => 0
  | .setRaw tgt mask => (mask ++ 0#4 ++ tgt).setWidth 56
  | .setRawAll m1 m2 m3 m4 m5 m6 => bytesToD [m1, m2, m3, m4, m5, m6]
  | .showDec val => val.setWidth 56
  | .showHex val => val.setWidth 56
  | .setDp tgt on => (BitVec.ofBool on ++ 0#3 ++ tgt).setWidth 56
  | .setLedBrightness tgt lvl => (lvl ++ tgt).setWidth 56
  | .setLedState tgt on => (BitVec.ofBool on ++ 0#3 ++ tgt).setWidth 56

/-- A command's `LEN`: the frame length for WRITE_FRAME, 0 for every other (R60, R62). -/
def operandLen (i : Instr) : BitVec 3 :=
  match i with
  | .writeFrame bytes => BitVec.ofNat 3 bytes.length
  | _ => 0

/-- `w = (OP << 59) | (LEN << 56) | D` (R60). -/
def encode (i : Instr) : Word :=
  ((opcodeBits (opcodeOf i)).setWidth 64 <<< 59) ||| ((operandLen i).setWidth 64 <<< 56) ||| (operandD i).setWidth 64

/-- The command this decoder reads from a word given by the opcode table's bit numbering: the table's 64-bit word is
the whole command word, and any bit above `nbits` is 0 (R60). -/
def decodeTableWord (nbits w : Nat) : Option Instr :=
  match decode (BitVec.ofNat 64 (w % 2 ^ nbits)) with
  | .ok i => some i
  | .error _ => none

end Sys2Proof
end

