-- ==== Sys2Proof/Config.lean ====
section
/-! DEFINITION. The implementation parameters of R6, the constraints of R15, and the one free value (R101). -/

namespace Sys2Proof

/-- The parameters the spec leaves OPEN (R6), as plain data. -/
structure Params where
  /-- `N_DIGITS`, 1..6. -/
  nDigits : Nat
  /-- `F_SYS` in Hz (a whole number: DESIGN CHOICE, log 4). -/
  fSys : Nat
  /-- `N_SETUP`: cycles of a setup hold, at least 2 µs. -/
  nSetup : Nat
  /-- `N_HALF`: cycles of a half-period hold, at least 1 µs. -/
  nHalf : Nat
  rwWrite : BitVec 1
  rwRead : BitVec 1
  pageDigit : BitVec 2
  pageConf1 : BitVec 2
  pageLedbrt : BitVec 2
  pageLedstate : BitVec 2
  pageRead : BitVec 2
  modeInc : BitVec 1
  modeFixed : BitVec 1
  dispOnCmd : Byte
  dispOffCmd : Byte
  /-- `CONF1_MODE(n)` at place `n - 1`, n = 1..6. -/
  conf1Mode : Vector Byte 6
  defDigBrt : Level
  defLedBrt : Level
  /-- `FONT(n)`, the lit segments of nibble `n` (R81). -/
  font : Vector (List Segment) 16
  deriving DecidableEq, Repr

/-- The constraints of R15 with R6's microsecond bounds, `N ≥ ceil(k·10⁻⁶·F_SYS)` written as
`k·F_SYS ≤ N·10⁶`. Those the field widths give by themselves (R15's "in 0..3" and the like) need no check. -/
abbrev Params.Admitted (p : Params) : Prop :=
  (1 ≤ p.nDigits ∧ p.nDigits ≤ 6) ∧
  0 < p.fSys ∧
  (1 ≤ p.nSetup ∧ 2 * p.fSys ≤ p.nSetup * 1000000) ∧
  (1 ≤ p.nHalf ∧ p.fSys ≤ p.nHalf * 1000000) ∧
  p.rwWrite ≠ p.rwRead ∧
  [p.pageDigit, p.pageConf1, p.pageLedbrt, p.pageLedstate].Nodup ∧
  p.modeInc ≠ p.modeFixed ∧
  p.dispOnCmd ≠ p.dispOffCmd

/-- An admitted configuration. Parameters that break R15 are no configuration: they have no model (U25). -/
abbrev Config := { p : Params // p.Admitted }

/-- R15's refusal: the configuration made of parameters, if they are admitted. -/
def Config.ofParams? (p : Params) : Option Config :=
  if h : p.Admitted then some ⟨p, h⟩ else none

/-- `N_LEDS`, fixed at 8 (R6, D46). -/
def nLeds : Nat := 8

/-- The level of the data line at the `n`-th sample whose level `env.dioIn` does not give: a FREE VALUE
(R101: "A claim about a READ_BYTE result must hold for every draw"; log 8). No body: nothing can be proved of it. -/
opaque Config.freeLevel : Nat → Bool

end Sys2Proof
end

