-- ==== Sys2Proof/Machine/Params.lean ====
section
/-! DEFINITION. The test configuration EX of R7, with the font of R81. It is not the chip's register map. -/

namespace Sys2Proof

/-- The hexadecimal font of R81 (EX's `FONT`). -/
def fontR81 : Vector (List Segment) 16 :=
  #v[[.a, .b, .c, .d, .e, .f],          -- 0
     [.b, .c],                          -- 1
     [.a, .b, .d, .e, .g],              -- 2
     [.a, .b, .c, .d, .g],              -- 3
     [.b, .c, .f, .g],                  -- 4
     [.a, .c, .d, .f, .g],              -- 5
     [.a, .c, .d, .e, .f, .g],          -- 6
     [.a, .b, .c],                      -- 7
     [.a, .b, .c, .d, .e, .f, .g],      -- 8
     [.a, .b, .c, .d, .f, .g],          -- 9
     [.a, .b, .c, .e, .f, .g],          -- A
     [.c, .d, .e, .f, .g],              -- b
     [.a, .d, .e, .f],                  -- C
     [.b, .c, .d, .e, .g],              -- d
     [.a, .d, .e, .f, .g],              -- E
     [.a, .e, .f, .g]]                  -- F

/-- EX with `n` digits (R7; the vectors of 95_test_vectors vary only `N_DIGITS`). R7 gives EX no clock:
1 MHz with the shortest holds it admits is a DESIGN CHOICE (log 3). -/
def exParams (n : Nat) : Params where
  nDigits := n
  fSys := 1000000
  nSetup := 2
  nHalf := 1
  rwWrite := 0
  rwRead := 1
  pageDigit := 0b00
  pageConf1 := 0b01
  pageLedbrt := 0b10
  pageLedstate := 0b11
  pageRead := 0b01
  modeInc := 0
  modeFixed := 1
  dispOnCmd := 0x0D
  dispOffCmd := 0x0E
  conf1Mode := #v[0, 1, 2, 3, 4, 5]
  defDigBrt := 2
  defLedBrt := 2
  font := fontR81

/-- The test configuration EX (R7). -/
def Config.ex : Config := ⟨exParams 6, by decide⟩

end Sys2Proof
end

