-- ==== Sys2Proof/Machine/Regs.lean ====
section
/-! DEFINITION. The parts State is made of (R20) with their reset values (R33): display registers, pins, sequencer, and the outside world as plain data. -/

namespace Sys2Proof.Machine

/-- The two kinds of hold (R14, R93). -/
inductive HoldKind where
  | setup | half
  deriving DecidableEq, Repr

/-- The wire-event alphabet (R14). -/
inductive WireEvent where
  /-- `SEL(b)` -/
  | sel (b : Bool)
  /-- `CLK(b)` -/
  | clk (b : Bool)
  /-- `DOUT(b)` -/
  | dout (b : Bool)
  /-- `DDIR(IN)` -/
  | ddirIn
  /-- `DDIR(OUT, b)` -/
  | ddirOut (b : Bool)
  /-- `HOLD(SETUP)`, `HOLD(HALF)` -/
  | hold (h : HoldKind)
  /-- `SAMPLE(j, b)` -/
  | sample (j : Nat) (b : Bool)
  deriving DecidableEq, Repr

/-- What the frame buffer can be loaded with: the composer's six frames (R112), WRITE_FRAME's raw frame (R98),
READ_BYTE's command byte (R100). That the last two are held in the
frame buffer too is a DESIGN CHOICE (log 19): R31 and R113 give it the composer's frames. -/
inductive FrameKind where
  | digit | conf1 | ledbrt | ledstate | dispon | dispoff
  | raw (bytes : List Byte)
  | readCmd (addr : Nibble)
  deriving DecidableEq, Repr

/-- One move of the sequencer (R22): the wire primitives of R92, and the internal moves of the command rules. -/
inductive MicroOp where
  | selLow | selHigh | clkLow | clkHigh
  /-- `DioDrive(F[k][i])`: bit `i` of byte `k` of the frame buffer. -/
  | dioDrive (k i : Nat)
  | dioRelease | dioReclaim
  /-- `Hold(h)`: emits the event and loads `DLY`. -/
  | hold (h : HoldKind)
  /-- The wait of a hold: `DLY` has reached 0. -/
  | dlyExpire
  /-- `Sample(j)` -/
  | sample (j : Nat)
  /-- Load the frame buffer: compose a frame from the current registers (R113 (b)), or a raw frame or read command (log 19). -/
  | compose (k : FrameKind)
  /-- `acc <- 0` (R100). -/
  | clearAcc
  /-- `RDATA <- acc`, the last move of READ_BYTE (R102). -/
  | latchAcc
  /-- `RDATA <- ROM[n]`, the one move of SEG_LOOKUP (R86). -/
  | lookup (n : Nibble)
  /-- The last busy cycle of every other command, an ignored one too (R29, R114). -/
  | finish
  /-- `setAllNib(LBRT, v)` between INIT's first two frames (R116). -/
  | fillLbrt (v : Level)
  deriving DecidableEq, Repr

/-- The error codes of `ERR` (R151). -/
inductive ErrCode where
  | none | illegalOp | illegalOperand | overlap
  deriving DecidableEq, Repr

/-- What HOST does at one point of the run (R5, R40, R170; log 6). -/
inductive HostAct where
  /-- nothing at this point -/
  | quiet
  /-- a CMD write -/
  | writeCmd (w : Word)
  /-- one read of STATUS -/
  | readStatus
  /-- one read of ERRINFO -/
  | readErrinfo
  /-- read STATUS again and again until `BUSY = 0` (R51, R176) -/
  | poll
  /-- drive the input RST to a level (R170) -/
  | setRst (level : Bool)
  deriving DecidableEq, Repr

/-- What a read port returned to HOST (R72). -/
inductive HostRead where
  | status (v : BitVec 16)
  | errinfo (v : Word)
  deriving DecidableEq, Repr

/-- The display-register space (R40 (1)). -/
structure Display where
  /-- `DIG[1], …, DIG[N_DIGITS]` (R21). -/
  dig : List Byte
  /-- `BRT[0..2]` (R23). -/
  brt : Vector Byte 3
  /-- `LBRT[0..3]` (R24). -/
  lbrt : Vector Byte 4
  /-- `LSTATE` (R25). -/
  lstate : Byte
  deriving DecidableEq, Repr

/-- The output pins (R27): `SEL_O`, `CLK_O`, `DIO_OE`, `DIO_O`. -/
structure Pins where
  sel : Bool
  clk : Bool
  dioOe : Bool
  dioO : Bool
  deriving DecidableEq, Repr

/-- The sequencer's internal state (R22, R30, R31). -/
structure Sequencer where
  /-- The micro-operations still to do of the command in progress; `[]` at IDLE. -/
  phase : List MicroOp
  /-- The delay counter `DLY`. -/
  dly : Nat
  /-- The byte index within the frame; when it changes is log 18's. -/
  byteIx : Nat
  /-- The bit index; when it changes is log 18's. -/
  bitIx : Nat
  /-- The frame buffer (R31); it holds raw frames and read commands too (log 19). -/
  frame : List Byte
  /-- The read accumulator. -/
  acc : Byte
  deriving DecidableEq, Repr

/-- The world outside BBSTC as plain data: its coming inputs and the record of BBSTC's outputs (logs 6, 8, 10). -/
structure Env where
  /-- HOST's coming acts, oldest first. -/
  inbox : List HostAct
  /-- The level of the input RST. -/
  rst : Bool
  /-- What HOST has read, newest first. -/
  reads : List HostRead
  /-- Levels of DIO_I at the next sample points, where the outside fixes them. -/
  dioIn : List Bool
  /-- How many samples have been taken. -/
  draws : Nat
  /-- The wire events emitted, newest first (`State.trace` reads them oldest first). -/
  wire : List WireEvent
  /-- The lengths of `wire` at which RST forced the pins to their idle levels, newest first (R172). -/
  cuts : List Nat
  deriving DecidableEq, Repr

/-- The reset wiring `W0`: a..g on bits 0..6, dp on bit 7 (R33, D11). -/
def wiringW0 : Wiring := ⟨0, 1, 2, 3, 4, 5, 6, 7⟩

/-- The display registers after reset, for `n` digits (R33). -/
def displayReset (n : Nat) : Display :=
  { dig := List.replicate n 0, brt := Vector.replicate 3 0, lbrt := Vector.replicate 4 0, lstate := 0 }

/-- The idle levels of the pins, which reset drives (R33). -/
def pinsReset : Pins := { sel := true, clk := true, dioOe := true, dioO := true }

/-- The sequencer at IDLE: nothing to do, counters and accumulator 0 (R33); the frame buffer empty (log 11). -/
def seqIdle : Sequencer := { phase := [], dly := 0, byteIx := 0, bitIx := 0, frame := [], acc := 0 }

/-- A world in which HOST does nothing and nothing has been recorded. -/
def envQuiet : Env :=
  { inbox := [], rst := false, reads := [], dioIn := [], draws := 0, wire := [], cuts := [] }

end Sys2Proof.Machine
end

