-- ==== Sys2Proof/Machine/State.lean ====
section
/-! DEFINITION. The machine's state (R20), the reasons a step can stop, and the state after reset (R33). -/

namespace Sys2Proof.Machine

/-- Everything the spec gives BBSTC (R20), its fixed configuration (R6) and the world outside as plain data. -/
structure State where
  /-- The parameters of R6. Nothing writes this field (log 2). -/
  cfg : Config
  /-- `DIG`, `BRT`, `LBRT`, `LSTATE`. -/
  disp : Display
  /-- `WIRE`. -/
  wiring : Wiring
  /-- `RDATA`. -/
  rdata : Byte
  /-- `BUSY`. -/
  busy : Bool
  /-- `ERR`. -/
  err : ErrCode
  /-- `ERRINFO`. -/
  errinfo : Word
  /-- The output pins. -/
  pins : Pins
  /-- The sequencer's internal state. -/
  seq : Sequencer
  /-- The outside world. -/
  env : Env
  deriving DecidableEq, Repr

/-- Why a step could stop with a fault. -/
inductive Fault where
  /-- `ERR = 3`: HOST wrote CMD while `BUSY = 1`. Raised by `Safety.strictStep` alone, never by `step`, which
  records the error and goes on as R155 says (R160, log 12). Safe: it stops where the hardware goes on. -/
  | overlap
  /-- `ERR = 1` or `2`: an illegal word is the first error recorded, so an OVERLAP after it leaves no mark of its own.
  Raised by `Safety.strictStep` alone, never by `step` (R160, log 12). Safe: it stops where the hardware goes on. -/
  | illegalWord
  deriving DecidableEq, Repr

/-- Why a step could be refused. -/
inductive Refusal where
  /-- An instruction with no meaning in the model. Raised by nobody: every arm of `exec` has its meaning. Safe. -/
  | notModelled (mnemonic : String)
  /-- A frame of 0 bytes or of more than 7, which no command word spells (R62, R97: "1 <= L <= 7").
  Raised by `execWriteFrame` on such an ill-formed term, never on a decoded command. Safe. -/
  | illFormedFrame
  deriving DecidableEq, Repr

/-- The state after reset under a configuration, in a given outside world: every element at its value of R33. -/
def State.resetIn (c : Config) (e : Env) : State :=
  { cfg := c, disp := displayReset c.val.nDigits, wiring := wiringW0, rdata := 0, busy := false, err := .none,
    errinfo := 0, pins := pinsReset, seq := seqIdle, env := e }

/-- The state right after reset under a configuration, with a host that does nothing. -/
def State.resetOf (c : Config) : State := State.resetIn c envQuiet

/-- The machine right after reset, under the test configuration EX (R7, R33; log 2). -/
def State.reset : State := State.resetOf Config.ex

end Sys2Proof.Machine
end

