-- ==== Sys2Proof/Machine/Flags.lean ====
section
/-! DEFINITION. The status bits: the code of ERR (R151), the STATUS word (R72), the error a rejected word raises (R71). -/

namespace Sys2Proof.Machine

/-- The 2-bit code of `ERR` (R151). -/
def errBits (e : ErrCode) : BitVec 2 :=
  match e with
  | .none => 0
  | .illegalOp => 1
  | .illegalOperand => 2
  | .overlap => 3

/-- `STATUS = {RDATA[7:0], 5'b00000, ERR[1:0], BUSY}` (R72). -/
def State.status (s : State) : BitVec 16 :=
  s.rdata ++ 0#5 ++ errBits s.err ++ BitVec.ofBool s.busy

/-- The error code a word the decoder rejects is recorded under (R153, R154). -/
def errOfDecode (e : DecodeError) : ErrCode :=
  match e with
  | .illegalOp => .illegalOp
  | .illegalOperand => .illegalOperand

end Sys2Proof.Machine
end

