-- ==== Sys2Proof/Machine/Operands.lean ====
section
/-! DEFINITION. Operand forms and data arithmetic: targets (R11, R114), packed nibbles (R115), the segment table (R80, R82, R87), decimal digits (R124). -/

namespace Sys2Proof.Machine

/-- What a target field names for an instance with `n` items (R11): all of them, the one numbered `k` (1..n), or
nothing in range. -/
inductive TargetSel where
  | all
  | one (k : Nat)
  | outOfRange
  deriving DecidableEq, Repr

/-- Read a target field against `n` items (R11, R114). -/
def targetSel (n : Nat) (t : Target) : TargetSel :=
  if t.toNat = 0 then .all else if t.toNat ≤ n then .one t.toNat else .outOfRange

/-- Item `k` (from 0) of a packed array; 0 beyond its end, where no rule reads. -/
def packedAt {m : Nat} (A : Vector Byte m) (k : Nat) : Byte := A[k]?.getD 0

/-- `setNib(A, t, v)` for `t ≥ 1` (R115): odd `t` the low nibble, even `t` the high one. -/
def setNib {m : Nat} (A : Vector Byte m) (t : Nat) (v : Level) : Vector Byte m :=
  let k := (t - 1) / 2
  let old := packedAt A k
  if (t - 1) % 2 = 0 then A.setIfInBounds k ((old &&& 0xF0#8) ||| v.setWidth 8)
  else A.setIfInBounds k ((old &&& 0x0F#8) ||| (v.setWidth 8 <<< 4))

/-- `setAllNib(A, v)` (R115). -/
def setAllNib (m : Nat) (v : Level) : Vector Byte m :=
  Vector.replicate m (v.setWidth 8 ||| (v.setWidth 8 <<< 4))

/-- `getNib(A, t)` for `t ≥ 1` (R115). -/
def getNib {m : Nat} (A : Vector Byte m) (t : Nat) : Level :=
  ((packedAt A ((t - 1) / 2)) >>> (4 * ((t - 1) % 2))).setWidth 3

/-- The bit index a segment is wired to (R26). -/
def wireOf (w : Wiring) (s : Segment) : BitVec 3 :=
  match s with
  | .a => w.a
  | .b => w.b
  | .c => w.c
  | .d => w.d
  | .e => w.e
  | .f => w.f
  | .g => w.g

/-- `1 << WIRE[s]` at 8 bits. -/
def bitMask (i : BitVec 3) : Byte := 1#8 <<< i.toNat

/-- `ROM[n]` under a font and a wiring (R80). -/
def romEntry (font : Vector (List Segment) 16) (w : Wiring) (n : Nibble) : Byte :=
  (font[n.toNat]'n.isLt).foldr (fun s acc => bitMask (wireOf w s) ||| acc) 0#8

/-- `DPMASK` (R82). -/
def dpMask (w : Wiring) : Byte := bitMask w.dp

/-- `ROM[n]` as the machine stands (R26). -/
def State.rom (s : State) (n : Nibble) : Byte := romEntry s.cfg.val.font s.wiring n

/-- `glyph(old, n)`: numeral `n`, DP state kept (R87). -/
def State.glyph (s : State) (old : Byte) (n : Nibble) : Byte := (old &&& dpMask s.wiring) ||| s.rom n

/-- `blank(old)`: the numeral blank, DP state kept (R87). -/
def State.blank (s : State) (old : Byte) : Byte := old &&& dpMask s.wiring

/-- `DIG[p+1]`, the digit at position `p` counted from the lowest (R21); 0 beyond the buffer, where no rule reads. -/
def State.digAt (s : State) (p : Nat) : Byte := s.disp.dig.getD p 0

/-- The decimal digit of a value at position `p`: `(VAL / 10^p) % 10` (R124). -/
def decDigit (v : BitVec 32) (p : Nat) : Nibble := BitVec.ofNat 4 (v.toNat / 10 ^ p % 10)

/-- What SHOW_DEC puts at position `p` (R124): the digit's glyph, or a blank at a leading position. -/
def State.decByte (s : State) (v : BitVec 32) (p : Nat) : Byte :=
  if p = 0 ∨ 10 ^ p ≤ v.toNat then s.glyph (s.digAt p) (decDigit v p) else s.blank (s.digAt p)

/-- SET_DP on one digit byte (R126). -/
def dpByte (w : Wiring) (on : Bool) (old : Byte) : Byte :=
  if on then old ||| dpMask w else old &&& ~~~(dpMask w)

/-- The LED-state bit of LED `k` (1..8): bit `k - 1` (R25). -/
def ledBit (k : Nat) : Byte := 1#8 <<< (k - 1)

/-- SET_LED_STATE on one LED (R128). -/
def ledByte (on : Bool) (k : Nat) (old : Byte) : Byte :=
  if on then old ||| ledBit k else old &&& ~~~(ledBit k)

end Sys2Proof.Machine
end

