-- ==== Sys2Proof/Machine/Frames.lean ====
section
/-! DEFINITION. The frame composer: header bytes (R73, R74) and the frames (R112). -/

namespace Sys2Proof.Machine

/-- `HDR(rw, page, mode, addr)` (R73). -/
def hdr (rw : BitVec 1) (page : BitVec 2) (mode : BitVec 1) (addr : Nibble) : Byte :=
  (rw.setWidth 8 <<< 7) ||| (page.setWidth 8 <<< 5) ||| (mode.setWidth 8 <<< 4) ||| addr.setWidth 8

/-- The header of a write frame to a page: write, auto-increment, address 0 (R111). -/
def hdrWrite (c : Config) (page : BitVec 2) : Byte := hdr c.val.rwWrite page c.val.modeInc 0

/-- `HDR_READ(a)`, with bit 4 = 0 (R74). -/
def hdrRead (c : Config) (a : Nibble) : Byte := hdr c.val.rwRead c.val.pageRead 0 a

/-- `CONF1_MODE(N_DIGITS)` (R6, R112). -/
def conf1ModeByte (c : Config) : Byte := c.val.conf1Mode[c.val.nDigits - 1]?.getD 0

/-- The bytes of each frame, from the current registers (R112), and of a raw frame (R98) and a read's command byte (R100), which
the model holds in the frame buffer too (DESIGN CHOICE, log 19). -/
def State.frameOf (s : State) (k : FrameKind) : List Byte :=
  match k with
  | .digit => hdrWrite s.cfg s.cfg.val.pageDigit :: s.disp.dig
  | .conf1 => hdrWrite s.cfg s.cfg.val.pageConf1 :: conf1ModeByte s.cfg :: s.disp.brt.toList
  | .ledbrt => hdrWrite s.cfg s.cfg.val.pageLedbrt :: s.disp.lbrt.toList
  | .ledstate => [hdrWrite s.cfg s.cfg.val.pageLedstate, s.disp.lstate]
  | .dispon => [s.cfg.val.dispOnCmd]
  | .dispoff => [s.cfg.val.dispOffCmd]
  | .raw bytes => bytes
  | .readCmd addr => [hdrRead s.cfg addr]

end Sys2Proof.Machine
end

