-- ==== Sys2Proof/Machine/Ops.lean ====
section
/-! DEFINITION. The named operations: field updates, the error primitive (R152), reset (R170 to R172), the wire primitives (R92), HOST's acts, the sequencer (R22, R94, R97, R100). -/

namespace Sys2Proof.Machine

/-! One update per field of State. -/

def State.setDisp (s : State) (d : Display) : State := { s with disp := d }
def State.setWiring (s : State) (w : Wiring) : State := { s with wiring := w }
def State.setRdata (s : State) (b : Byte) : State := { s with rdata := b }
def State.setBusy (s : State) (b : Bool) : State := { s with busy := b }
def State.setErr (s : State) (e : ErrCode) (w : Word) : State := { s with err := e, errinfo := w }
def State.setPins (s : State) (p : Pins) : State := { s with pins := p }
def State.setSeq (s : State) (q : Sequencer) : State := { s with seq := q }
def State.setEnv (s : State) (e : Env) : State := { s with env := e }

/-- `DIG[1..] <- l`. -/
def State.setDig (s : State) (l : List Byte) : State := s.setDisp { s.disp with dig := l }

/-- `BRT <- v`. -/
def State.setBrt (s : State) (v : Vector Byte 3) : State := s.setDisp { s.disp with brt := v }

/-- `LBRT <- v`. -/
def State.setLbrt (s : State) (v : Vector Byte 4) : State := s.setDisp { s.disp with lbrt := v }

/-- `LSTATE <- b`. -/
def State.setLstate (s : State) (b : Byte) : State := s.setDisp { s.disp with lstate := b }

/-- The rest of HOST's acts becomes `l`. -/
def State.setInbox (s : State) (l : List HostAct) : State := s.setEnv { s.env with inbox := l }

/-! Errors and reset. -/

/-- The error primitive `raise Error(code, w)`: only the first error since reset is recorded; the word has no other
effect (R152). This is the one way an error is taken: BBSTC has no trap, no vector and no return (R150, R159). -/
def State.raiseError (s : State) (code : ErrCode) (w : Word) : State :=
  if s.err = .none then s.setErr code w else s

/-- Every element of BBSTC at its reset value; the outside world as it is (R171). Reset emits no wire event. -/
def State.toReset (s : State) : State := State.resetIn s.cfg s.env

/-- RST goes high (R170 to R172): any command is abandoned, the pins take their idle levels at once, and the place in
the wire log is noted as a cut. -/
def State.assertRst (s : State) : State :=
  State.resetIn s.cfg { s.env with rst := true, cuts := s.env.wire.length :: s.env.cuts }

/-- RST goes low (R170): BBSTC leaves reset. -/
def State.releaseRst (s : State) : State := s.setEnv { s.env with rst := false }

/-! HOST's acts. -/

/-- HOST reads a port: no side effect on BBSTC (R72). -/
def State.recordRead (s : State) (r : HostRead) : State := s.setEnv { s.env with reads := r :: s.env.reads }

/-- The effect of one act of HOST, when no command word is being accepted. A CMD write meets a running command
(OVERLAP, R155), or RST is high and it is ignored (R170); the write of an idle BBSTC is `State.acceptWord`'s. -/
def State.hostAct (s : State) (a : HostAct) : State :=
  match a with
  | .quiet => s
  | .writeCmd w => if s.busy then s.raiseError .overlap w else s
  | .readStatus => s.recordRead (.status s.status)
  | .readErrinfo => s.recordRead (.errinfo s.errinfo)
  | .poll => s.recordRead (.status s.status)
  | .setRst true => s.assertRst
  | .setRst false => s.releaseRst

/-- One point at which HOST can act (log 6): its next act, if any, takes effect. A poll waits for `BUSY = 0`. -/
def State.hostPoint (s : State) : State :=
  match s.env.inbox with
  | [] => s
  | .poll :: rest => if s.busy then s else (s.setInbox rest).hostAct .poll
  | a :: rest => (s.setInbox rest).hostAct a

/-! The wire primitives (R92) and the sequencer's internal moves. -/

/-- Emit one wire event (R14). -/
def State.emit (s : State) (e : WireEvent) : State := s.setEnv { s.env with wire := e :: s.env.wire }

/-- The wire events so far, oldest first. -/
def State.trace (s : State) : List WireEvent := s.env.wire.reverse

/-- The cycles a hold loads into `DLY` (R30). -/
def holdCycles (c : Config) (h : HoldKind) : Nat :=
  match h with
  | .setup => c.val.nSetup
  | .half => c.val.nHalf

/-- `DIO_I` at the next sample point (R27, R101): the level the outside world gives, else a free value. -/
def State.dioLevel (s : State) : Bool :=
  match s.env.dioIn with
  | b :: _ => b
  | [] => Config.freeLevel s.env.draws

/-- The sample point is past: the next one draws a new level. -/
def State.drawn (s : State) : State := s.setEnv { s.env with dioIn := s.env.dioIn.tail, draws := s.env.draws + 1 }

/-- `acc[j] <- b` (R92). -/
def setAccBit (acc : Byte) (j : Nat) (b : Bool) : Byte :=
  (acc &&& ~~~(1#8 <<< j)) ||| ((BitVec.ofBool b).setWidth 8 <<< j)

/-- Bit `i` of byte `k` of a frame (R42, R94). -/
def frameBit (f : List Byte) (k i : Nat) : Bool := (f.getD k 0#8).getLsbD i

/-- Carry out one move of the sequencer (R92 for the wire primitives). That the byte and bit counters of R31 change at
`DioDrive`, and the bit counter at `Sample`, is a DESIGN CHOICE (log 18). -/
def State.runOp (s : State) (op : MicroOp) : State :=
  match op with
  | .selLow => (s.setPins { s.pins with sel := false }).emit (.sel false)
  | .selHigh => (s.setPins { s.pins with sel := true }).emit (.sel true)
  | .clkLow => (s.setPins { s.pins with clk := false }).emit (.clk false)
  | .clkHigh => (s.setPins { s.pins with clk := true }).emit (.clk true)
  | .dioDrive k i =>
    ((s.setSeq { s.seq with byteIx := k, bitIx := i }).setPins { s.pins with dioO := frameBit s.seq.frame k i }).emit
      (.dout (frameBit s.seq.frame k i))
  | .dioRelease => (s.setPins { s.pins with dioOe := false }).emit .ddirIn
  | .dioReclaim => (s.setPins { s.pins with dioOe := true, dioO := true }).emit (.ddirOut true)
  | .hold h => (s.setSeq { s.seq with dly := holdCycles s.cfg h }).emit (.hold h)
  | .dlyExpire => s.setSeq { s.seq with dly := 0 }
  | .sample j =>
    ((s.setSeq { s.seq with bitIx := j, acc := setAccBit s.seq.acc j s.dioLevel }).emit (.sample j s.dioLevel)).drawn
  | .compose k => s.setSeq { s.seq with frame := s.frameOf k }
  | .clearAcc => s.setSeq { s.seq with acc := 0 }
  | .latchAcc => s.setRdata s.seq.acc
  | .lookup n => s.setRdata (s.rom n)
  | .finish => s
  | .fillLbrt v => s.setLbrt (setAllNib 4 v)

/-! The sequences of moves. -/

/-- `Hold(h)`: the hold and its wait (R93). -/
def holdOps (h : HoldKind) : List MicroOp := [.hold h, .dlyExpire]

/-- One clock pulse of `WriteBits`: `ClkLow; Hold(HALF); ClkHigh; Hold(HALF)` (R94). -/
def pulseOps : List MicroOp := [.clkLow] ++ holdOps .half ++ [.clkHigh] ++ holdOps .half

/-- `WriteBits(F[k])`: bit 0 first (R94). -/
def writeBitsOps (k : Nat) : List MicroOp := (List.range 8).flatMap fun i => .dioDrive k i :: pulseOps

/-- `send` of the `L` bytes in the frame buffer (R97). -/
def sendOps (L : Nat) : List MicroOp :=
  [.clkHigh, .selLow] ++ holdOps .setup ++ (List.range L).flatMap writeBitsOps ++ holdOps .setup ++ [.selHigh]

/-- The clock cycle that samples read bit `j`: `ClkLow; Hold(HALF); ClkHigh; Sample(j); Hold(HALF)` (R100). -/
def readBitOps (j : Nat) : List MicroOp := [.clkLow] ++ holdOps .half ++ [.clkHigh, .sample j] ++ holdOps .half

/-- `recv` with the command byte in the frame buffer (R100). No `CLK(1)` stands at its start (R180). -/
def recvOps : List MicroOp :=
  [.selLow] ++ holdOps .setup ++ writeBitsOps 0 ++ [.dioRelease, .clearAcc] ++ (List.range 8).flatMap readBitOps ++
    [.dioReclaim] ++ holdOps .setup ++ [.selHigh]

/-- Compose a frame from the registers, then send it (R113 (b) and (c)). -/
def State.frameOps (s : State) (k : FrameKind) : List MicroOp := .compose k :: sendOps (s.frameOf k).length

/-! Running a command to its end. -/

/-- The command is complete: `BUSY <- 0`, IDLE, and the sequencer's internals hold nothing (R29, log 11). -/
def State.complete (s : State) : State := (s.setSeq seqIdle).setBusy false

/-- Run the moves of the command in progress, with one point for HOST before each move. If `BUSY` is 0 after such a
point, RST has abandoned the command (R172). `BUSY` falls with the last move, so no STATUS read shows a new `RDATA`
beside `BUSY = 1` (R177, log 17). -/
def State.runOps (s : State) (ops : List MicroOp) : State :=
  match ops with
  | [] => s.complete
  | op :: rest =>
    let s1 := (s.setSeq { s.seq with phase := op :: rest }).hostPoint
    if s1.busy then (s1.runOp op).runOps rest else s1

/-- An accepted command whose registers are already updated: `BUSY <- 1`, then its moves (R71, R113). -/
def State.command (s : State) (ops : List MicroOp) : State := (s.setBusy true).runOps ops

/-- Phases (b) and (c) of a display command: compose the frame from the updated registers and send it (R113). -/
def State.transact (s : State) (k : FrameKind) : State := s.command (s.frameOps k ++ [.finish])

/-- A command ignored for its target: `BUSY` for at least one cycle, and nothing else (R114). -/
def State.ignored (s : State) : State := s.command [.finish]

end Sys2Proof.Machine
end

