-- ==== Sys2Proof/Machine/Display.lean ====
section
/-! DEFINITION. The display commands: INIT to SET_LED_STATE (R116 to R128), each over the shared operations. -/

namespace Sys2Proof.Machine

/-- INIT's register updates before its first frame: the buffer zeroed, then `setAllNib(BRT, DEF_DIG_BRT)` (R116). -/
def State.zeroBuffer (s : State) : State :=
  s.setDisp { displayReset s.cfg.val.nDigits with brt := setAllNib 3 s.cfg.val.defDigBrt }

/-- INIT's moves: CONF1, then `setAllNib(LBRT, DEF_LED_BRT)` and LEDBRT, then DIGIT, then DISPON (R116). -/
def State.initOps (s : State) : List MicroOp :=
  s.frameOps .conf1 ++ .fillLbrt s.cfg.val.defLedBrt :: s.frameOps .ledbrt ++ s.frameOps .digit ++ s.frameOps .dispon ++
    [.finish]

/-- INIT in full (R116). -/
def State.runInit (s : State) : State := s.zeroBuffer.command s.zeroBuffer.initOps

/-- INIT (R116). -/
def execInit (s : State) : Host.Outcome State Fault Refusal := .next s.runInit

/-- INIT_WIRING: `WIRE <- Wv`, then INIT in full (R117). -/
def execInitWiring (wv : Wiring) (s : State) : Host.Outcome State Fault Refusal := .next (s.setWiring wv).runInit

/-- DISPLAY_ON: `send(F_DISPON)` (R118). -/
def execDisplayOn (s : State) : Host.Outcome State Fault Refusal := .next (s.transact .dispon)

/-- DISPLAY_OFF: `send(F_DISPOFF)` (R119). -/
def execDisplayOff (s : State) : Host.Outcome State Fault Refusal := .next (s.transact .dispoff)

/-- SET_BRIGHTNESS: one digit's level or all six nibbles, then `F_CONF1` (R120). -/
def execSetBrightness (tgt : Target) (lvl : Level) (s : State) : Host.Outcome State Fault Refusal :=
  .next (match targetSel s.cfg.val.nDigits tgt with
    | .all => (s.setBrt (setAllNib 3 lvl)).transact .conf1
    | .one k => (s.setBrt (setNib s.disp.brt k lvl)).transact .conf1
    | .outOfRange => s.ignored)

/-- CLEAR: every digit byte 0, DP included, then `F_DIGIT` (R121). -/
def execClear (s : State) : Host.Outcome State Fault Refusal :=
  .next ((s.setDig (List.replicate s.cfg.val.nDigits 0)).transact .digit)

/-- SET_RAW: one digit byte or all of them, then `F_DIGIT` (R122). -/
def execSetRaw (tgt : Target) (mask : Byte) (s : State) : Host.Outcome State Fault Refusal :=
  .next (match targetSel s.cfg.val.nDigits tgt with
    | .all => (s.setDig (List.replicate s.cfg.val.nDigits mask)).transact .digit
    | .one k => (s.setDig (s.disp.dig.set (k - 1) mask)).transact .digit
    | .outOfRange => s.ignored)

/-- SET_RAW_ALL: `DIG[i] <- ARR[i-1]` for i = 1..N_DIGITS, then `F_DIGIT` (R123). -/
def execSetRawAll (m1 m2 m3 m4 m5 m6 : Byte) (s : State) : Host.Outcome State Fault Refusal :=
  .next ((s.setDig ([m1, m2, m3, m4, m5, m6].take s.cfg.val.nDigits)).transact .digit)

/-- SHOW_DEC: every position gets its digit or a blank, then `F_DIGIT` (R124). -/
def execShowDec (val : BitVec 32) (s : State) : Host.Outcome State Fault Refusal :=
  .next ((s.setDig ((List.range s.cfg.val.nDigits).map (s.decByte val))).transact .digit)

/-- The digit bytes SHOW_HEX leaves: position 0 the low nibble, position 1 (if there is one) the next (R125). -/
def State.hexDigits (s : State) (val : BitVec 32) : List Byte :=
  let low := s.disp.dig.set 0 (s.glyph (s.digAt 0) (val.extractLsb' 0 4))
  if 2 ≤ s.cfg.val.nDigits then low.set 1 (s.glyph (s.digAt 1) (val.extractLsb' 4 4)) else low

/-- SHOW_HEX: the low byte on positions 0 and 1, the higher digits untouched, then `F_DIGIT` (R125, R182). -/
def execShowHex (val : BitVec 32) (s : State) : Host.Outcome State Fault Refusal :=
  .next ((s.setDig (s.hexDigits val)).transact .digit)

/-- SET_DP: the DP bit of one digit or of all, then `F_DIGIT` (R126). -/
def execSetDp (tgt : Target) (on : Bool) (s : State) : Host.Outcome State Fault Refusal :=
  .next (match targetSel s.cfg.val.nDigits tgt with
    | .all => (s.setDig (s.disp.dig.map (dpByte s.wiring on))).transact .digit
    | .one k => (s.setDig (s.disp.dig.modify (k - 1) (dpByte s.wiring on))).transact .digit
    | .outOfRange => s.ignored)

/-- SET_LED_BRIGHTNESS: one LED's level or all eight nibbles, then `F_LEDBRT` (R127). -/
def execSetLedBrightness (tgt : Target) (lvl : Level) (s : State) : Host.Outcome State Fault Refusal :=
  .next (match targetSel nLeds tgt with
    | .all => (s.setLbrt (setAllNib 4 lvl)).transact .ledbrt
    | .one k => (s.setLbrt (setNib s.disp.lbrt k lvl)).transact .ledbrt
    | .outOfRange => s.ignored)

/-- SET_LED_STATE: one LED's bit or all eight, then `F_LEDSTATE` (R128). -/
def execSetLedState (tgt : Target) (on : Bool) (s : State) : Host.Outcome State Fault Refusal :=
  .next (match targetSel nLeds tgt with
    | .all => (s.setLstate (if on then 0xFF else 0x00)).transact .ledstate
    | .one k => (s.setLstate (ledByte on k s.disp.lstate)).transact .ledstate
    | .outOfRange => s.ignored)

end Sys2Proof.Machine
end

