-- ==== Sys2Proof/Machine/Encoder.lean ====
section
/-! DEFINITION. The segment encoder's command: SEG_LOOKUP (R86). -/

namespace Sys2Proof.Machine

/-- SEG_LOOKUP: `RDATA <- ROM[NIB]` (R86). -/
def execSegLookup (nib : Nibble) (s : State) : Host.Outcome State Fault Refusal :=
  .next (s.command [.lookup nib])

end Sys2Proof.Machine
end

