-- ==== Sys2Proof/Machine/Transport.lean ====
section
/-! DEFINITION. The transport's commands: WRITE_FRAME (R98) and READ_BYTE (R102). -/

namespace Sys2Proof.Machine

/-- WRITE_FRAME: `send([FB[0], …, FB[LEN-1]])` (R98). A term that no command word spells is refused.
The bytes go through the frame buffer, not through the composer (R110): DESIGN CHOICE, log 19. -/
def execWriteFrame (bytes : List Byte) (s : State) : Host.Outcome State Fault Refusal :=
  if FrameLength bytes then .next (s.transact (.raw bytes)) else .refused .illFormedFrame

/-- READ_BYTE: `RDATA <- recv(ADDR)`, RDATA when the transaction ends (R102).
The command byte goes through the frame buffer: DESIGN CHOICE, log 19. -/
def execReadByte (addr : Nibble) (s : State) : Host.Outcome State Fault Refusal :=
  .next (s.command (.compose (.readCmd addr) :: recvOps ++ [.latchAcc]))

end Sys2Proof.Machine
end

