-- ==== Sys2Proof/Machine/Dispatch.lean ====
section
/-! DEFINITION. exec: one command, from acceptance to completion (R4), one arm per constructor of Instr. -/

namespace Sys2Proof.Machine

def exec (i : Instr) (s : State) : Host.Outcome State Fault Refusal :=
  match i with
  | .segLookup nib => Sys2Proof.Machine.execSegLookup nib s
  | .writeFrame bytes => Sys2Proof.Machine.execWriteFrame bytes s
  | .readByte addr => Sys2Proof.Machine.execReadByte addr s
  | .init => Sys2Proof.Machine.execInit s
  | .initWiring wv => Sys2Proof.Machine.execInitWiring wv s
  | .displayOn => Sys2Proof.Machine.execDisplayOn s
  | .displayOff => Sys2Proof.Machine.execDisplayOff s
  | .setBrightness tgt lvl => Sys2Proof.Machine.execSetBrightness tgt lvl s
  | .clear => Sys2Proof.Machine.execClear s
  | .setRaw tgt mask => Sys2Proof.Machine.execSetRaw tgt mask s
  | .setRawAll m1 m2 m3 m4 m5 m6 => Sys2Proof.Machine.execSetRawAll m1 m2 m3 m4 m5 m6 s
  | .showDec val => Sys2Proof.Machine.execShowDec val s
  | .showHex val => Sys2Proof.Machine.execShowHex val s
  | .setDp tgt on => Sys2Proof.Machine.execSetDp tgt on s
  | .setLedBrightness tgt lvl => Sys2Proof.Machine.execSetLedBrightness tgt lvl s
  | .setLedState tgt on => Sys2Proof.Machine.execSetLedState tgt on s

end Sys2Proof.Machine
end

