-- ==== Sys2Proof/Machine/Accept.lean ====
section
/-! DEFINITION. Accepting a command word (R71) and what one step does: HOST's next act, or the rest of a running command. -/

namespace Sys2Proof.Machine

/-- A CMD write while BBSTC is idle and not in reset: decode, then run the command or record the error (R71). -/
def State.acceptWord (s : State) (w : Word) : Host.Outcome State Fault Refusal :=
  match decode w with
  | .ok i => exec i s
  | .error e => .next (s.raiseError (errOfDecode e) w)

/-- One step. While RST is high every element is held at its reset value and a CMD write is ignored (R170). A command
in progress runs to its end. An idle BBSTC takes HOST's next act; with none it stays as it is (R171). -/
def State.stepOnce (s : State) : Host.Outcome State Fault Refusal :=
  if s.env.rst then .next s.toReset.hostPoint
  else if s.busy then .next (s.runOps s.seq.phase)
  else
    match s.env.inbox with
    | .writeCmd w :: rest => (s.setInbox rest).acceptWord w
    | _ => .next s.hostPoint

end Sys2Proof.Machine
end

