-- ==== Sys2Proof/Machine/Step.lean ====
section
/-! DEFINITION. The step function, and the placing of a command word where the next step takes it. -/

namespace Sys2Proof.Machine

/-- One step of the machine. -/
def step (s : State) : Host.Outcome State Fault Refusal := s.stepOnce

/-- `s` with a command word as HOST's next act, and BBSTC out of reset and idle so that the word is accepted at once
(log 7). The word is the whole 64-bit command; bits above `nbits` are 0. -/
def State.withFetchWord (s : State) (nbits w : Nat) : State :=
  { s with
    busy := false
    seq := seqIdle
    env := { s.env with rst := false, inbox := .writeCmd (BitVec.ofNat 64 (w % 2 ^ nbits)) :: s.env.inbox } }

end Sys2Proof.Machine
end

