-- ==== Sys2Proof/Safety.lean ====
section
/-! DEFINITION. The terms claims are made in: the normative wire sequences (R94, R97, R100), a receiver of the wire, bus discipline, durations, the invariant, and what counts as a faulted run (R160). -/

namespace Sys2Proof.Machine

/-! The normative wire sequences, written from the rules and independent of the sequencer. -/

/-- `DOUT(b), CLK(0), HOLD(HALF), CLK(1), HOLD(HALF)` (R94). -/
def bitEvents (b : Bool) : List WireEvent := [.dout b, .clk false, .hold .half, .clk true, .hold .half]

/-- The 40 events of `WriteBits(b)`, bit 0 first (R94). -/
def byteEvents (b : Byte) : List WireEvent := (List.range 8).flatMap fun i => bitEvents (b.getLsbD i)

/-- The event sequence of `send(F)` (R97). -/
def sendEvents (F : List Byte) : List WireEvent :=
  [.clk true, .sel false, .hold .setup] ++ F.flatMap byteEvents ++ [.hold .setup, .sel true]

/-- `CLK(0), HOLD(HALF), CLK(1), SAMPLE(j, b), HOLD(HALF)` (R100). -/
def sampleEvents (j : Nat) (b : Bool) : List WireEvent :=
  [.clk false, .hold .half, .clk true, .sample j b, .hold .half]

/-- The event sequence of `recv` with command byte `cmd` and samples `lv 0 … lv 7` (R100). -/
def recvEvents (cmd : Byte) (lv : Nat → Bool) : List WireEvent :=
  [.sel false, .hold .setup] ++ byteEvents cmd ++ [.ddirIn] ++ (List.range 8).flatMap (fun j => sampleEvents j (lv j)) ++
    [.ddirOut true, .hold .setup, .sel true]

/-- The level of the `j`-th sample from here on: what the outside gives, else the free value (R101). -/
def State.coming (s : State) (j : Nat) : Bool :=
  match s.env.dioIn[j]? with
  | some b => b
  | none => Config.freeLevel (s.env.draws + j)

/-- The last bit a frame drives: `F[L-1][7]` (R97). -/
def lastBit (F : List Byte) : Bool := (F.getLastD 0#8).getLsbD 7

/-- A machine after one whole, undisturbed write transaction of `F`: idle again, the lines as R97 leaves them, the
transaction's events on the wire, everything else as it was. -/
def State.afterSend (s : State) (F : List Byte) : State :=
  { s with
    busy := false
    seq := seqIdle
    pins := { s.pins with sel := true, clk := true, dioO := lastBit F }
    env := { s.env with wire := (sendEvents F).reverse ++ s.env.wire } }

/-- HOST does nothing while the command runs: no further act is due. -/
abbrev State.Quiet (s : State) : Prop := s.env.inbox = []

/-! A receiver of the wire: it takes a bit at each rising clock edge while select is low and assembles bytes LSB
first (R42, R43, R95). It is a device for claims about the wire, not a model of the CHIP. -/

/-- What the receiver keeps: the lines' levels, the bits of the open transaction, and the whole transactions. -/
structure Receiver where
  sel : Bool
  clk : Bool
  dio : Bool
  bits : List Bool
  frames : List (List Bool)
  deriving DecidableEq, Repr

/-- The receiver at idle lines. -/
def Receiver.start : Receiver := { sel := true, clk := true, dio := true, bits := [], frames := [] }

/-- The receiver sees one event. -/
def Receiver.see (r : Receiver) (e : WireEvent) : Receiver :=
  match e with
  | .sel false => { r with sel := false, bits := [] }
  | .sel true => { r with sel := true, frames := if r.sel then r.frames else r.frames ++ [r.bits] }
  | .clk false => { r with clk := false }
  | .clk true => { r with clk := true, bits := if r.clk || r.sel then r.bits else r.bits ++ [r.dio] }
  | .dout b => { r with dio := b }
  | .ddirOut b => { r with dio := b }
  | .ddirIn => r
  | .hold _ => r
  | .sample _ _ => r

/-- The bits of each transaction in a trace, in the order received. -/
def receivedBits (l : List WireEvent) : List (List Bool) := (l.foldl Receiver.see Receiver.start).frames

/-- The bits of a frame, LSB first, byte by byte. -/
def frameBits (F : List Byte) : List Bool := F.flatMap fun b => (List.range 8).map b.getLsbD

/-! Bus discipline. -/

/-- The preconditions of R92 along a list of events, from an output-enable level: BBSTC drives and releases the data
line only while it is an output, reclaims and samples it only while it is an input (R99). -/
def busDiscipline (oe : Bool) (l : List WireEvent) : Bool :=
  match l with
  | [] => true
  | .dout _ :: r => oe && busDiscipline oe r
  | .ddirIn :: r => oe && busDiscipline false r
  | .ddirOut _ :: r => !oe && busDiscipline true r
  | .sample _ _ :: r => !oe && busDiscipline oe r
  | .sel _ :: r => busDiscipline oe r
  | .clk _ :: r => busDiscipline oe r
  | .hold _ :: r => busDiscipline oe r

/-- The data line changes only while the clock is high (R95), from a clock level. -/
def dataStableWhileClockLow (clk : Bool) (l : List WireEvent) : Bool :=
  match l with
  | [] => true
  | .dout _ :: r => clk && dataStableWhileClockLow clk r
  | .clk b :: r => dataStableWhileClockLow b r
  | .ddirIn :: r => clk && dataStableWhileClockLow clk r
  | .ddirOut _ :: r => clk && dataStableWhileClockLow clk r
  | .sample _ _ :: r => dataStableWhileClockLow clk r
  | .sel _ :: r => dataStableWhileClockLow clk r
  | .hold _ :: r => dataStableWhileClockLow clk r

/-! Durations: lower bounds only (R93, R185). -/

/-- The least cycles of `F_SYS` one event takes: its hold (R93). -/
def eventCycles (c : Config) (e : WireEvent) : Nat :=
  match e with
  | .hold h => holdCycles c h
  | .sel _ => 0
  | .clk _ => 0
  | .dout _ => 0
  | .ddirIn => 0
  | .ddirOut _ => 0
  | .sample _ _ => 0

/-- The least cycles of `F_SYS` a list of events takes (R185). -/
def minCycles (c : Config) (l : List WireEvent) : Nat := (l.map (eventCycles c)).sum

/-! Faulted runs and host discipline. -/

/-- `ERR` as R160's sticky fault mark, whatever its code: an OVERLAP that comes after another error keeps that error's
code (R152), so only `ERR = 0` says that none has happened since reset (log 12). -/
abbrev State.Faulted (s : State) : Prop := s.err ≠ .none

/-- The fault an error code marks, if it is one. -/
def faultOf (e : ErrCode) : Option Fault :=
  match e with
  | .none => none
  | .illegalOp => some .illegalWord
  | .illegalOperand => some .illegalWord
  | .overlap => some .overlap

/-- `step` for claims under R160: it answers a next state only where that state has `ERR = 0`. OVERLAP is a fault,
and so is a recorded illegal word, which R160 lets a model refuse. -/
def strictStep (s : State) : Host.Outcome State Fault Refusal :=
  match step s with
  | .next t =>
    match faultOf t.err with
    | some f => .fault f
    | none => .next t
  | .fault f => .fault f
  | .refused r => .refused r

/-- HOST's acts hold no assertion of RST. -/
def noReset (l : List HostAct) : Bool := l.all fun a => a ≠ .setRst true

/-- Two states that differ at most in what HOST's acts touch: ERR, ERRINFO, what HOST has read and what it is to do. -/
abbrev SameButHost (s t : State) : Prop :=
  ({ s with err := t.err, errinfo := t.errinfo, env := { s.env with inbox := t.env.inbox, reads := t.env.reads } } : State) = t

/-! The invariant. -/

/-- Bits 3 and 7 of every packed brightness byte are 0 (R23, R24, D45). -/
def levelsClean {m : Nat} (A : Vector Byte m) : Bool := A.toList.all fun b => b &&& 0x88#8 == 0#8

/-- What holds of BBSTC between commands: the idle invariant of R32, an idle sequencer, one byte per digit (R21), clean
nibbles (R23, R24), ERRINFO 0 while there is no error (R151), and every element at its reset value while RST is high (R170). -/
abbrev State.Inv (s : State) : Prop :=
  s.busy = false ∧ s.seq = seqIdle ∧ s.pins.sel = true ∧ s.pins.clk = true ∧ s.pins.dioOe = true ∧
  s.disp.dig.length = s.cfg.val.nDigits ∧ levelsClean s.disp.brt = true ∧ levelsClean s.disp.lbrt = true ∧
  (s.err = .none → s.errinfo = 0) ∧ (s.env.rst = true → s = s.toReset)

end Sys2Proof.Machine
end

