-- ==== Sys2Proof/Certificates/Slice0/Obligations.lean ====
section
/-! DEFINITION. The statements for the provers, from the spec's numbered rules. -/

open Sys2Proof Sys2Proof.Machine

/-! ## Encoding -/

/-- Every command's word decodes to it (R60 to R70): no operand bit is dropped. -/
def Obligations.EncodeThenDecodeIsIdentity : Prop :=
  ∀ i : Instr, WellFormed i → decode (encode i) = .ok i

/-- Every accepted word spells exactly one command, which encodes to that very word (R70: no other bit may be set). -/
def Obligations.DecodedWordIsItsOwnEncoding : Prop :=
  ∀ (w : Word) (i : Instr), decode w = .ok i → WellFormed i ∧ encode i = w

/-- ILLEGAL_OP (R153): raised exactly for a word whose opcode field is 0x00 or 0x11..0x1F, whatever its other bits. -/
def Obligations.UnassignedOpcodeRaisesIllegalOp : Prop :=
  ∀ (w : Word),
    (decode w = .error .illegalOp ↔ (w.extractLsb' 59 5 = 0 ∨ 0x11 ≤ (w.extractLsb' 59 5).toNat)) ∧
    ∀ (s : State) (rest : List HostAct), s.env.rst = false → s.busy = false → s.env.inbox = .writeCmd w :: rest →
      (w.extractLsb' 59 5 = 0 ∨ 0x11 ≤ (w.extractLsb' 59 5).toNat) →
      step s = .next ((s.setInbox rest).raiseError .illegalOp w)

/-- ILLEGAL_OPERAND (R154): raised exactly for a word of an assigned opcode with a reserved-zero bit set, or of
WRITE_FRAME with `LEN = 0`. -/
def Obligations.ReservedBitRaisesIllegalOperand : Prop :=
  ∀ (w : Word),
    (decode w = .error .illegalOperand ↔
      ∃ op, w.extractLsb' 59 5 = opcodeBits op ∧
        (w &&& resvMask op (w.extractLsb' 56 3) ≠ 0 ∨ (op = .writeFrame ∧ w.extractLsb' 56 3 = 0))) ∧
    ∀ (s : State) (rest : List HostAct), s.env.rst = false → s.busy = false → s.env.inbox = .writeCmd w :: rest →
      decode w = .error .illegalOperand → step s = .next ((s.setInbox rest).raiseError .illegalOperand w)

/-- The encoding examples of R79. -/
def Obligations.ExampleWordsDecodeAndEncode : Prop :=
  (∀ p ∈ [(Instr.setBrightness 1 5, (0x4000000000000051 : Word)), (.setRaw 3 0x76, 0x5000000000007603),
      (.showDec 123456, 0x600000000001E240), (.writeFrame [0x35], 0x1100000000000035), (.readByte 1, 0x1800000000000001),
      (.initWiring ⟨0, 1, 2, 3, 4, 5, 6, 7⟩, 0x2800000000FAC688)],
    decode p.2 = .ok p.1 ∧ encode p.1 = p.2)

/-- The header byte (R73): rw in bit 7, page in bits 6:5, mode in bit 4, address in bits 3:0; a write frame's header is
auto-increment from address 0 (R111), and the read header has bit 4 = 0 (R74). -/
def Obligations.HeaderByteHasItsFields : Prop :=
  (∀ (rw : BitVec 1) (page : BitVec 2) (mode : BitVec 1) (addr : Nibble),
    (hdr rw page mode addr).extractLsb' 7 1 = rw ∧ (hdr rw page mode addr).extractLsb' 5 2 = page ∧
    (hdr rw page mode addr).extractLsb' 4 1 = mode ∧ (hdr rw page mode addr).extractLsb' 0 4 = addr) ∧
  (∀ (c : Config) (page : BitVec 2), hdrWrite c page = hdr c.val.rwWrite page c.val.modeInc 0) ∧
  (∀ (c : Config) (a : Nibble), hdrRead c a = hdr c.val.rwRead c.val.pageRead 0 a)

/-- The STATUS word (R72), bit by bit, and that reading either port changes nothing of BBSTC. -/
def Obligations.StatusWordLayout : Prop :=
  ∀ s : State,
    (s.status.getLsbD 0 = s.busy ∧ s.status.extractLsb' 1 2 = errBits s.err ∧ s.status.extractLsb' 3 5 = 0 ∧
      s.status.extractLsb' 8 8 = s.rdata) ∧
    ∀ rest, s.env.rst = false → s.busy = false →
      (s.env.inbox = .readStatus :: rest →
        step s = .next { s with env := { s.env with inbox := rest, reads := .status s.status :: s.env.reads } }) ∧
      (s.env.inbox = .readErrinfo :: rest →
        step s = .next { s with env := { s.env with inbox := rest, reads := .errinfo s.errinfo :: s.env.reads } })

/-- The error codes of R151. -/
def Obligations.ErrorCodes : Prop :=
  errBits .none = 0 ∧ errBits .illegalOp = 1 ∧ errBits .illegalOperand = 2 ∧ errBits .overlap = 3

/-! ## Acceptance, errors, reset -/

/-- A step runs the decoded command: a CMD write of an idle machine out of reset runs exec of the command its word
decodes to (R71); so does a word placed by `withFetchWord`. -/
def Obligations.StepRunsTheDecodedCommand : Prop :=
  (∀ (s : State) (w : Word) (i : Instr) (rest : List HostAct),
    s.env.rst = false → s.busy = false → s.env.inbox = .writeCmd w :: rest → decode w = .ok i →
      step s = exec i (s.setInbox rest)) ∧
  ∀ (s : State) (nbits w : Nat) (i : Instr), decodeTableWord nbits w = some i →
    step (s.withFetchWord nbits w) =
      exec i { s with busy := false, seq := seqIdle, env := { s.env with rst := false } }

/-- A word that is no command changes nothing but the error registers and emits no wire event (R71); of several errors
only the first is recorded (R152). -/
def Obligations.IllegalWordChangesOnlyTheErrorRegisters : Prop :=
  ∀ (s : State) (w : Word) (e : DecodeError) (rest : List HostAct),
    s.env.rst = false → s.busy = false → s.env.inbox = .writeCmd w :: rest → decode w = .error e →
      (s.err = .none →
        step s = .next { s with err := errOfDecode e, errinfo := w, env := { s.env with inbox := rest } }) ∧
      (s.err ≠ .none → step s = .next { s with env := { s.env with inbox := rest } })

/-- ERR and ERRINFO keep the first error: only reset clears them (R29, R152). -/
def Obligations.FirstErrorStaysUntilReset : Prop :=
  ∀ s t : State, step s = .next t → s.env.rst = false → t.env.rst = false → s.err ≠ .none →
    t.err = s.err ∧ t.errinfo = s.errinfo

/-- A CMD write that finds a command running is OVERLAP with the dropped word in ERRINFO, and the command completes (R151, R155). -/
def Obligations.OverlapIsRecorded : Prop :=
  ∀ (i : Instr) (s : State) (w : Word) (rest : List HostAct),
    WellFormed i → s.err = .none → s.env.inbox = .writeCmd w :: rest → noReset rest = true →
      ∃ t, exec i s = .next t ∧ t.busy = false ∧ t.err = .overlap ∧ t.errinfo = w

/-- OVERLAP (R155): a CMD write at a point where a command runs raises it, and the word goes no further; and whatever HOST
writes or reads meanwhile, the command ends as it would undisturbed but for ERR, ERRINFO and what HOST has read. -/
def Obligations.OverlapLeavesTheCommandUndisturbed : Prop :=
  (∀ (s : State) (w : Word) (rest : List HostAct), s.busy = true → s.env.inbox = .writeCmd w :: rest →
    s.hostPoint = (s.setInbox rest).raiseError .overlap w) ∧
  ∀ (i : Instr) (s : State) (acts : List HostAct), WellFormed i → s.env.rst = false → noReset acts = true →
    ∃ t u, exec i (s.setInbox acts) = .next t ∧ exec i (s.setInbox []) = .next u ∧ SameButHost u t

/-- A host that polls BUSY before its next write disturbs nothing: its acts wait until the command is complete (R51, R176). -/
def Obligations.PollingHostWaitsForCompletion : Prop :=
  ∀ (i : Instr) (s : State) (rest : List HostAct), WellFormed i → s.env.inbox = .poll :: rest →
    ∃ u, exec i (s.setInbox []) = .next u ∧ exec i s = .next (u.setInbox (.poll :: rest))

/-- Reset during a command abandons it (R172): if RST has gone high, every element of BBSTC is at its reset value, the
pins at their idle levels among them, the wire events stop at the reset, a prefix of those the undisturbed command emits, and a
cut notes where; RST at the command's first point leaves reset values and an untouched wire log.
That reset adds no event to `env.wire` and notes a cut in `env.cuts` instead is the model's choice (DESIGN CHOICE, log 10), and
so are the point at which RST lands (log 6) and the empty frame buffer at reset (log 11). -/
def Obligations.ResetDuringACommandAbandonsIt : Prop :=
  (∀ (i : Instr) (s t : State), exec i s = .next t → s.env.rst = false → t.env.rst = true →
    t = t.toReset ∧ t.cfg = s.cfg ∧ t.env.cuts = t.env.wire.length :: s.env.cuts ∧
      ∃ u E rest, exec i (s.setInbox []) = .next u ∧ t.trace = s.trace ++ E ∧ u.trace = t.trace ++ rest) ∧
  ∀ (i : Instr) (s : State) (rest : List HostAct), WellFormed i → s.env.inbox = .setRst true :: rest →
    exec i s = .next (State.resetIn s.cfg
      { s.env with inbox := rest, rst := true, cuts := s.env.wire.length :: s.env.cuts })

/-- While RST is high every element is held at its reset value, no wire event is emitted, and a CMD write is ignored
and is no error (R170).
The record `env.wire`, to which a reset adds no event, is the model's choice (DESIGN CHOICE, log 10), and so is the empty frame
buffer at reset (DESIGN CHOICE, log 11). -/
def Obligations.ResetHoldsEveryElement : Prop :=
  ∀ s : State, s.env.rst = true →
    ∃ t, step s = .next t ∧ t = t.toReset ∧ t.cfg = s.cfg ∧ t.env.wire = s.env.wire ∧
      ∀ w rest, s.env.inbox = .writeCmd w :: rest → t = State.resetIn s.cfg { s.env with inbox := rest }

/-- The reset values of R33, for every configuration; DPMASK is 0x80, and under the font of R81 the table is R83's. -/
def Obligations.ResetValues : Prop :=
  ∀ c : Config,
    (∀ b ∈ (State.resetOf c).disp.dig, b = 0x00) ∧ (State.resetOf c).disp.dig.length = c.val.nDigits ∧
    (State.resetOf c).disp.brt = #v[0x00, 0x00, 0x00] ∧ (State.resetOf c).disp.lbrt = #v[0x00, 0x00, 0x00, 0x00] ∧
    (State.resetOf c).disp.lstate = 0x00 ∧ (State.resetOf c).wiring = ⟨0, 1, 2, 3, 4, 5, 6, 7⟩ ∧
    dpMask (State.resetOf c).wiring = 0x80 ∧ (State.resetOf c).rdata = 0x00 ∧ (State.resetOf c).busy = false ∧
    errBits (State.resetOf c).err = 0 ∧ (State.resetOf c).errinfo = 0 ∧
    (State.resetOf c).pins = { sel := true, clk := true, dioOe := true, dioO := true } ∧
    (State.resetOf c).seq.phase = [] ∧ (State.resetOf c).seq.dly = 0 ∧ (State.resetOf c).seq.byteIx = 0 ∧
    (State.resetOf c).seq.bitIx = 0 ∧ (State.resetOf c).seq.acc = 0 ∧
    (c.val.font = fontR81 → ∀ n : Nibble, (State.resetOf c).rom n =
      [0x3F, 0x06, 0x5B, 0x4F, 0x66, 0x6D, 0x7D, 0x07, 0x7F, 0x6F, 0x77, 0x7C, 0x39, 0x5E, 0x79, 0x71].getD n.toNat 0)

/-- BBSTC executes nothing until HOST writes CMD (R171): with no act due, an idle machine stays as it is. -/
def Obligations.IdleMachineStaysAsItIs : Prop :=
  ∀ s : State, s.env.rst = false → s.busy = false → s.env.inbox = [] → step s = .next s

/-- What R15 admits is exactly what is a configuration. -/
def Obligations.ConfigurationsAreTheAdmittedParameters : Prop :=
  ∀ p : Params, (Config.ofParams? p).isSome = true ↔
    ((1 ≤ p.nDigits ∧ p.nDigits ≤ 6) ∧ p.rwWrite ≠ p.rwRead ∧
      (p.pageDigit ≠ p.pageConf1 ∧ p.pageDigit ≠ p.pageLedbrt ∧ p.pageDigit ≠ p.pageLedstate ∧
        p.pageConf1 ≠ p.pageLedbrt ∧ p.pageConf1 ≠ p.pageLedstate ∧ p.pageLedbrt ≠ p.pageLedstate) ∧
      p.modeInc ≠ p.modeFixed ∧ p.dispOnCmd ≠ p.dispOffCmd ∧ 0 < p.fSys ∧ 1 ≤ p.nSetup ∧ 1 ≤ p.nHalf ∧
      2 * p.fSys ≤ p.nSetup * 1000000 ∧ p.fSys ≤ p.nHalf * 1000000)

/-- The strict step takes `ERR` as R160's sticky fault mark (the mark's form in Lean: log 12): it answers the next state exactly
where that ends with `ERR = 0`, Fault.overlap where it ends with `ERR = 3`, and Fault.illegalWord where it ends with 1 or 2. -/
def Obligations.OverlapIsAFaultOfTheStrictStep : Prop :=
  ∀ s t : State, step s = .next t →
    (¬ t.Faulted → strictStep s = .next t) ∧
    (t.err = .overlap → strictStep s = .fault .overlap) ∧
    (t.err = .illegalOp ∨ t.err = .illegalOperand → strictStep s = .fault .illegalWord)

/-! ## Segment encoder -/

/-- SEG_LOOKUP (R86): RDATA becomes `ROM[NIB]`, no wire event, no other register or pin changes.
The cleared sequencer (`seq := seqIdle`) at completion is the model's choice (DESIGN CHOICE, log 11). -/
def Obligations.SegLookupReadsTheTable : Prop :=
  ∀ (n : Nibble) (s : State), s.Quiet →
    exec (.segLookup n) s = .next { s with rdata := s.rom n, busy := false, seq := seqIdle }

/-- The table build (R80): bit `k` of `ROM[n]` is set exactly when some lit segment of `n` is wired to bit `k`. -/
def Obligations.RomBitIsSetByALitSegment : Prop :=
  ∀ (font : Vector (List Segment) 16) (w : Wiring) (n : Nibble) (k : Nat), k < 8 →
    ((romEntry font w n).getLsbD k = true ↔ ∃ s ∈ font[n.toNat]'n.isLt, (wireOf w s).toNat = k)

/-- The segment table stays as it is under every command but INIT_WIRING, RST apart (R88). -/
def Obligations.RomChangesOnlyWithTheWiring : Prop :=
  ∀ (i : Instr) (s t : State), exec i s = .next t → s.env.rst = false → t.env.rst = false →
    (∀ wv, i ≠ .initWiring wv) → t.wiring = s.wiring ∧ ∀ n, t.rom n = s.rom n

/-! ## Transport -/

/-- `send(F)` (R97): WRITE_FRAME emits exactly R97's event sequence, `5 + 40·L` events, and leaves the lines as R97 says.
The cleared sequencer (`seq := seqIdle`) at completion is the model's choice (DESIGN CHOICE, log 11). -/
def Obligations.WriteFrameEmitsTheSendSequence : Prop :=
  ∀ (F : List Byte) (s : State), 1 ≤ F.length → F.length ≤ 7 → s.Quiet →
    (exec (.writeFrame F) s = .next
      { s with
        busy := false
        seq := seqIdle
        pins := { s.pins with sel := true, clk := true, dioO := (F.getLastD 0).getLsbD 7 }
        env := { s.env with wire := (sendEvents F).reverse ++ s.env.wire } }) ∧
    (sendEvents F).length = 5 + 40 * F.length

/-- A receiver that takes a bit at each rising clock edge gets exactly the frame's bits, LSB first, bytes in order, in one
transaction (R42, R43). -/
def Obligations.WriteFrameReachesAReceiver : Prop :=
  ∀ (F : List Byte) (s : State), 1 ≤ F.length → F.length ≤ 7 → s.Quiet →
    ∃ t E, exec (.writeFrame F) s = .next t ∧ t.trace = s.trace ++ E ∧ receivedBits E = [frameBits F]

/-- A frame of no bytes or of more than seven, which no command word spells, is refused by name. -/
def Obligations.WriteFrameRefusesIllFormedTerms : Prop :=
  ∀ (F : List Byte) (s : State), (F.length = 0 ∨ 7 < F.length) → exec (.writeFrame F) s = .refused .illFormedFrame

/-- `recv(a)` (R100) under READ_BYTE: the event sequence, 86 events; bit `j` of RDATA is the level at sample `j`,
whatever the levels are (R101); the lines end idle; no other register changes, and eight draws are taken.
RDATA's write and the frame are R102's. The cleared sequencer (`seq := seqIdle`) at completion is the model's choice (DESIGN
CHOICE, log 11), and so are the fields that hold the given levels and count the draws (DESIGN CHOICE, log 8). -/
def Obligations.ReadByteAssemblesItsSamples : Prop :=
  ∀ (a : Nibble) (s : State), s.Quiet →
    ∃ t, exec (.readByte a) s = .next t ∧
      (∀ j, j < 8 → t.rdata.getLsbD j = s.coming j) ∧
      t.trace = s.trace ++ recvEvents (hdrRead s.cfg a) s.coming ∧
      (recvEvents (hdrRead s.cfg a) s.coming).length = 86 ∧
      t = { s with
            rdata := t.rdata
            busy := false
            seq := seqIdle
            pins := { sel := true, clk := true, dioOe := true, dioO := true }
            env := { s.env with dioIn := s.env.dioIn.drop 8, draws := s.env.draws + 8, wire := t.env.wire } }

/-- Transaction sizes (R103), and one select-low and one select-high in each (R105). The first `CLK(1)` of a write sets
the idle level and is no edge, so a write of `L` bytes has `8·L + 1` of them. -/
def Obligations.TransactionSizes : Prop :=
  (∀ F : List Byte,
    (sendEvents F).length = 5 + 40 * F.length ∧ (sendEvents F).count (.clk false) = 8 * F.length ∧
    (sendEvents F).count (.clk true) = 8 * F.length + 1 ∧ (sendEvents F).count (.hold .half) = 16 * F.length ∧
    (sendEvents F).count (.hold .setup) = 2 ∧ (sendEvents F).count (.sel false) = 1 ∧ (sendEvents F).count (.sel true) = 1) ∧
  ∀ (cmd : Byte) (lv : Nat → Bool),
    (recvEvents cmd lv).length = 86 ∧ (recvEvents cmd lv).count (.clk false) = 16 ∧
    (recvEvents cmd lv).count (.clk true) = 16 ∧ (recvEvents cmd lv).count (.hold .half) = 32 ∧
    (recvEvents cmd lv).count (.hold .setup) = 2 ∧ (recvEvents cmd lv).count (.sel false) = 1 ∧
    (recvEvents cmd lv).count (.sel true) = 1

/-- Bus discipline: from idle lines, the wire events a command emits, up to the cut where RST abandons it if it does, meet
every precondition of R92 (the data line is never driven while it is an input, R99) and move the data line only while the
clock is high (R95). The claim is of the events in `env.wire`: that the pins' forced return to idle at a reset is no event
there is the model's choice (DESIGN CHOICE, log 10), so nothing is claimed of that change. -/
def Obligations.EveryCommandKeepsBusDiscipline : Prop :=
  ∀ (i : Instr) (s t : State), s.pins.dioOe = true → s.pins.clk = true → exec i s = .next t →
    ∃ E, t.trace = s.trace ++ E ∧ busDiscipline true E = true ∧ dataStableWhileClockLow true E = true

/-- Every accepted command completes and BUSY falls, whatever HOST does meanwhile (R104). -/
def Obligations.EveryCommandCompletesAndBusyFalls : Prop :=
  ∀ (i : Instr) (s : State), WellFormed i → ∃ t, exec i s = .next t ∧ t.busy = false

/-- While BUSY is 1 RDATA still shows the previous result (R177): every STATUS read during a command returns BUSY 1 and the
RDATA the command began with. -/
def Obligations.StatusReadWhileBusyShowsTheOldResult : Prop :=
  ∀ (i : Instr) (s t : State), exec i s = .next t →
    ∃ R, t.env.reads = R ++ s.env.reads ∧
      ∀ v, .status v ∈ R → v.getLsbD 0 = true ∧ v.extractLsb' 8 8 = s.rdata

/-- Least durations (R185): a write of `L` bytes takes at least `2·N_SETUP + 16·L·N_HALF` cycles, which is at least
`4 + 16·L` µs; a read at least `2·N_SETUP + 32·N_HALF`, at least 36 µs; INIT's four frames at least `208 + 16·N_DIGITS` µs.
(`n` cycles last at least `u` µs exactly when `u·F_SYS ≤ n·10⁶`.) -/
def Obligations.LeastDurations : Prop :=
  ∀ c : Config,
    (∀ F : List Byte, minCycles c (sendEvents F) = 2 * c.val.nSetup + 16 * F.length * c.val.nHalf ∧
      (4 + 16 * F.length) * c.val.fSys ≤ minCycles c (sendEvents F) * 1000000) ∧
    (∀ (cmd : Byte) (lv : Nat → Bool), minCycles c (recvEvents cmd lv) = 2 * c.val.nSetup + 32 * c.val.nHalf ∧
      36 * c.val.fSys ≤ minCycles c (recvEvents cmd lv) * 1000000) ∧
    ∀ (s t : State), s.cfg = c → s.Quiet → exec .init s = .next t →
      ∃ E, t.trace = s.trace ++ E ∧ (208 + 16 * c.val.nDigits) * c.val.fSys ≤ minCycles c E * 1000000

/-! ## Frame composer and display commands -/

/-- Packed nibbles (R115): writing item `t` leaves it at the level written and every other item as it was; writing all
leaves each at the level. -/
def Obligations.PackedNibbleReadsBackAfterWrite : Prop :=
  ∀ (m : Nat) (A : Vector Byte m) (t u : Nat) (v : Level), 1 ≤ t → t ≤ 2 * m → 1 ≤ u → u ≤ 2 * m →
    getNib (setNib A t v) u = (if u = t then v else getNib A u) ∧ getNib (setAllNib m v) u = v

/-- The source's packing property (R115): level 5 for digit 1, then level 3 for digit 2, leaves `BRT[0] = 0x35`. -/
def Obligations.BrightnessPairPacksTo0x35 : Prop :=
  ∀ s : State, s.Quiet → 2 ≤ s.cfg.val.nDigits →
    ∃ t u, exec (.setBrightness 1 5) s = .next t ∧ exec (.setBrightness 2 3) t = .next u ∧ u.disp.brt[0] = 0x35

/-- INIT (R116): the buffer zeroed, default brightness, and the four frames in order; no other register changes.
The cleared sequencer (`seq := seqIdle`) at completion is the model's choice (DESIGN CHOICE, log 11). -/
def Obligations.InitSetsDefaultsAndSendsFourFrames : Prop :=
  ∀ s : State, s.Quiet →
    ∃ t, exec .init s = .next t ∧
      t = { s with
            disp := {
              dig := List.replicate s.cfg.val.nDigits 0x00
              brt := Vector.replicate 3 (s.cfg.val.defDigBrt.setWidth 8 * 0x11)
              lbrt := Vector.replicate 4 (s.cfg.val.defLedBrt.setWidth 8 * 0x11)
              lstate := 0x00 }
            busy := false
            seq := seqIdle
            pins := { s.pins with sel := true, clk := true, dioO := s.cfg.val.dispOnCmd.getLsbD 7 }
            env := { s.env with wire := t.env.wire } } ∧
      t.trace = s.trace ++
        sendEvents ([hdrWrite s.cfg s.cfg.val.pageConf1, conf1ModeByte s.cfg] ++ t.disp.brt.toList) ++
        sendEvents (hdrWrite s.cfg s.cfg.val.pageLedbrt :: t.disp.lbrt.toList) ++
        sendEvents (hdrWrite s.cfg s.cfg.val.pageDigit :: t.disp.dig) ++
        sendEvents [s.cfg.val.dispOnCmd]

/-- INIT_WIRING (R117): the new wiring, and for everything else, the wire output too, what INIT does. -/
def Obligations.InitWiringIsInitUnderTheNewWiring : Prop :=
  ∀ (wv : Wiring) (s : State), s.Quiet →
    ∃ u, exec .init s = .next u ∧ exec (.initWiring wv) s = .next { u with wiring := wv }

/-- DISPLAY_ON (R118): one transaction of the one byte DISP_ON_CMD, and no register changes.
The cleared sequencer (`seq := seqIdle`) at completion is the model's choice (DESIGN CHOICE, log 11). -/
def Obligations.DisplayOnSendsItsByte : Prop :=
  ∀ s : State, s.Quiet → exec .displayOn s = .next (s.afterSend [s.cfg.val.dispOnCmd])

/-- DISPLAY_OFF (R119): one transaction of the one byte DISP_OFF_CMD, and no register changes.
The cleared sequencer (`seq := seqIdle`) at completion is the model's choice (DESIGN CHOICE, log 11). -/
def Obligations.DisplayOffSendsItsByte : Prop :=
  ∀ s : State, s.Quiet → exec .displayOff s = .next (s.afterSend [s.cfg.val.dispOffCmd])

/-- SET_BRIGHTNESS (R120): ALL sets all six nibbles, a digit in range its own nibble only; then the whole CONF1 frame goes
out from the updated registers; a target out of range does nothing. Nothing but BRT and the transaction's own changes.
The cleared sequencer (`seq := seqIdle`) at completion is the model's choice (DESIGN CHOICE, log 11). -/
def Obligations.SetBrightnessWritesItsNibbles : Prop :=
  ∀ (tgt : Target) (lvl : Level) (s : State), s.Quiet →
    ∃ t, exec (.setBrightness tgt lvl) s = .next t ∧
      (tgt.toNat ≤ s.cfg.val.nDigits →
        t = (s.setBrt t.disp.brt).afterSend
          ([hdrWrite s.cfg s.cfg.val.pageConf1, conf1ModeByte s.cfg] ++ t.disp.brt.toList) ∧
        (∀ k, 1 ≤ k → k ≤ 6 → getNib t.disp.brt k = if tgt = 0 ∨ k = tgt.toNat then lvl else getNib s.disp.brt k) ∧
        (levelsClean s.disp.brt = true → levelsClean t.disp.brt = true)) ∧
      (s.cfg.val.nDigits < tgt.toNat → t = { s with busy := false, seq := seqIdle })

/-- CLEAR (R121): every digit byte 0, DP included, then the digit frame.
The cleared sequencer (`seq := seqIdle`) at completion is the model's choice (DESIGN CHOICE, log 11). -/
def Obligations.ClearBlanksEveryDigit : Prop :=
  ∀ s : State, s.Quiet →
    exec .clear s = .next ((s.setDig (List.replicate s.cfg.val.nDigits 0x00)).afterSend
      (hdrWrite s.cfg s.cfg.val.pageDigit :: List.replicate s.cfg.val.nDigits 0x00))

/-- SET_RAW (R122): the mask goes to every digit or to the one in range, and the digit frame goes out; a target out of
range does nothing.
The cleared sequencer (`seq := seqIdle`) at completion is the model's choice (DESIGN CHOICE, log 11). -/
def Obligations.SetRawOverwritesItsDigits : Prop :=
  ∀ (tgt : Target) (mask : Byte) (s : State), s.Quiet → s.disp.dig.length = s.cfg.val.nDigits →
    ∃ t, exec (.setRaw tgt mask) s = .next t ∧
      (tgt.toNat ≤ s.cfg.val.nDigits →
        t = (s.setDig t.disp.dig).afterSend (hdrWrite s.cfg s.cfg.val.pageDigit :: t.disp.dig) ∧
        t.disp.dig.length = s.cfg.val.nDigits ∧
        ∀ p, p < s.cfg.val.nDigits → t.digAt p = if tgt = 0 ∨ tgt.toNat = p + 1 then mask else s.digAt p) ∧
      (s.cfg.val.nDigits < tgt.toNat → t = { s with busy := false, seq := seqIdle })

/-- SET_RAW_ALL (R123): digit `i` takes `ARR[i-1]` for i = 1..N_DIGITS, and the digit frame goes out.
The cleared sequencer (`seq := seqIdle`) at completion is the model's choice (DESIGN CHOICE, log 11). -/
def Obligations.SetRawAllStoresTheArray : Prop :=
  ∀ (m1 m2 m3 m4 m5 m6 : Byte) (s : State), s.Quiet →
    ∃ t, exec (.setRawAll m1 m2 m3 m4 m5 m6) s = .next t ∧
      t = (s.setDig t.disp.dig).afterSend (hdrWrite s.cfg s.cfg.val.pageDigit :: t.disp.dig) ∧
      t.disp.dig.length = s.cfg.val.nDigits ∧
      ∀ p, p < s.cfg.val.nDigits → t.digAt p = [m1, m2, m3, m4, m5, m6].getD p 0

/-- SHOW_DEC (R124): position `p` shows `(VAL / 10^p) % 10`, or is blank when `p ≥ 1` and `VAL < 10^p`; the DP is kept in
every position; the digit frame goes out; no other register changes.
The cleared sequencer (`seq := seqIdle`) at completion is the model's choice (DESIGN CHOICE, log 11). -/
def Obligations.ShowDecWritesDecimalDigits : Prop :=
  ∀ (val : BitVec 32) (s : State), s.Quiet →
    ∃ t, exec (.showDec val) s = .next t ∧
      t = (s.setDig t.disp.dig).afterSend (hdrWrite s.cfg s.cfg.val.pageDigit :: t.disp.dig) ∧
      t.disp.dig.length = s.cfg.val.nDigits ∧
      ∀ p, p < s.cfg.val.nDigits → t.digAt p =
        if 1 ≤ p ∧ val.toNat < 10 ^ p then s.digAt p &&& dpMask s.wiring
        else (s.digAt p &&& dpMask s.wiring) ||| s.rom (BitVec.ofNat 4 (val.toNat / 10 ^ p % 10))

/-- A value of `10^N_DIGITS` or more blanks no position: every digit of the low `N_DIGITS` is shown (R124, C8). -/
def Obligations.ShowDecOverflowBlanksNothing : Prop :=
  ∀ (val : BitVec 32) (s : State), s.Quiet → 10 ^ s.cfg.val.nDigits ≤ val.toNat →
    ∃ t, exec (.showDec val) s = .next t ∧
      ∀ p, p < s.cfg.val.nDigits → t.digAt p =
        (s.digAt p &&& dpMask s.wiring) ||| s.rom (BitVec.ofNat 4 (val.toNat % 10 ^ s.cfg.val.nDigits / 10 ^ p % 10))

/-- SHOW_HEX (R125): position 0 shows `VAL[3:0]`, position 1, where there is one, `VAL[7:4]`, the DP kept in both; the
higher digits keep their values; the digit frame goes out.
The cleared sequencer (`seq := seqIdle`) at completion is the model's choice (DESIGN CHOICE, log 11). -/
def Obligations.ShowHexWritesTwoDigits : Prop :=
  ∀ (val : BitVec 32) (s : State), s.Quiet → s.disp.dig.length = s.cfg.val.nDigits →
    ∃ t, exec (.showHex val) s = .next t ∧
      t = (s.setDig t.disp.dig).afterSend (hdrWrite s.cfg s.cfg.val.pageDigit :: t.disp.dig) ∧
      t.disp.dig.length = s.cfg.val.nDigits ∧
      ∀ p, p < s.cfg.val.nDigits → t.digAt p =
        if p = 0 then (s.digAt 0 &&& dpMask s.wiring) ||| s.rom (val.extractLsb' 0 4)
        else if p = 1 then (s.digAt 1 &&& dpMask s.wiring) ||| s.rom (val.extractLsb' 4 4)
        else s.digAt p

/-- Where the DP shares no bit with a numeral segment, SHOW_DEC and SHOW_HEX keep the DP bit of every digit (R87, R84). -/
def Obligations.NumeralsKeepTheDecimalPoint : Prop :=
  ∀ (val : BitVec 32) (s : State), s.Quiet → s.disp.dig.length = s.cfg.val.nDigits →
    (∀ seg : Segment, wireOf s.wiring seg ≠ s.wiring.dp) →
    ∃ t u, exec (.showDec val) s = .next t ∧ exec (.showHex val) s = .next u ∧
      ∀ p, p < s.cfg.val.nDigits →
        t.digAt p &&& dpMask s.wiring = s.digAt p &&& dpMask s.wiring ∧
        u.digAt p &&& dpMask s.wiring = s.digAt p &&& dpMask s.wiring

/-- SET_DP (R126): the DP bit of every digit or of the one in range is set or cleared, whatever it was; the digit frame
goes out; a target out of range does nothing.
The cleared sequencer (`seq := seqIdle`) at completion is the model's choice (DESIGN CHOICE, log 11). -/
def Obligations.SetDpWritesOnlyTheDpBit : Prop :=
  ∀ (tgt : Target) (on : Bool) (s : State), s.Quiet → s.disp.dig.length = s.cfg.val.nDigits →
    ∃ t, exec (.setDp tgt on) s = .next t ∧
      (tgt.toNat ≤ s.cfg.val.nDigits →
        t = (s.setDig t.disp.dig).afterSend (hdrWrite s.cfg s.cfg.val.pageDigit :: t.disp.dig) ∧
        t.disp.dig.length = s.cfg.val.nDigits ∧
        ∀ p, p < s.cfg.val.nDigits → ∀ k, k < 8 → (t.digAt p).getLsbD k =
          if (tgt = 0 ∨ tgt.toNat = p + 1) ∧ k = s.wiring.dp.toNat then on else (s.digAt p).getLsbD k) ∧
      (s.cfg.val.nDigits < tgt.toNat → t = { s with busy := false, seq := seqIdle })

/-- SET_LED_BRIGHTNESS (R127): ALL sets all eight nibbles, an LED 1..8 its own nibble only; then the LEDBRT frame; a
target 9..15 does nothing.
The cleared sequencer (`seq := seqIdle`) at completion is the model's choice (DESIGN CHOICE, log 11). -/
def Obligations.SetLedBrightnessWritesItsNibbles : Prop :=
  ∀ (tgt : Target) (lvl : Level) (s : State), s.Quiet →
    ∃ t, exec (.setLedBrightness tgt lvl) s = .next t ∧
      (tgt.toNat ≤ 8 →
        t = (s.setLbrt t.disp.lbrt).afterSend (hdrWrite s.cfg s.cfg.val.pageLedbrt :: t.disp.lbrt.toList) ∧
        (∀ k, 1 ≤ k → k ≤ 8 → getNib t.disp.lbrt k = if tgt = 0 ∨ k = tgt.toNat then lvl else getNib s.disp.lbrt k) ∧
        (levelsClean s.disp.lbrt = true → levelsClean t.disp.lbrt = true)) ∧
      (8 < tgt.toNat → t = { s with busy := false, seq := seqIdle })

/-- SET_LED_STATE (R128): ALL sets all eight bits, an LED 1..8 its own bit only (LED `n` is bit `n-1`, R25); then the
LEDSTATE frame; a target 9..15 does nothing.
The cleared sequencer (`seq := seqIdle`) at completion is the model's choice (DESIGN CHOICE, log 11). -/
def Obligations.SetLedStateWritesItsBits : Prop :=
  ∀ (tgt : Target) (on : Bool) (s : State), s.Quiet →
    ∃ t, exec (.setLedState tgt on) s = .next t ∧
      (tgt.toNat ≤ 8 →
        t = (s.setLstate t.disp.lstate).afterSend [hdrWrite s.cfg s.cfg.val.pageLedstate, t.disp.lstate] ∧
        ∀ k, k < 8 → t.disp.lstate.getLsbD k =
          if tgt = 0 ∨ tgt.toNat = k + 1 then on else s.disp.lstate.getLsbD k) ∧
      (8 < tgt.toNat → t = { s with busy := false, seq := seqIdle })

/-- A command whose target is out of range does nothing (R114): no register written, no wire event, no error; BUSY is 1 for
at least one cycle, as a STATUS read at its first point shows, and then 0.
The cleared sequencer (`seq := seqIdle`) is the model's choice (DESIGN CHOICE, log 11), and so is the point at which HOST
reads (DESIGN CHOICE, log 6). -/
def Obligations.OutOfRangeTargetsAreIgnored : Prop :=
  ∀ (tgt : Target) (s : State) (i : Instr),
    ((s.cfg.val.nDigits < tgt.toNat ∧
        ((∃ lvl, i = .setBrightness tgt lvl) ∨ (∃ mask, i = .setRaw tgt mask) ∨ ∃ on, i = .setDp tgt on)) ∨
      (8 < tgt.toNat ∧ ((∃ lvl, i = .setLedBrightness tgt lvl) ∨ ∃ on, i = .setLedState tgt on))) →
    (s.Quiet → exec i s = .next { s with busy := false, seq := seqIdle }) ∧
    (s.env.inbox = [.readStatus] → exec i s = .next { s with
      busy := false
      seq := seqIdle
      env := { s.env with inbox := [], reads := .status ({ s with busy := true } : State).status :: s.env.reads } })

/-! ## The machine -/

/-- The invariant holds right after reset, for every configuration. The empty frame buffer in
`seq = seqIdle` is the model's choice (DESIGN CHOICE, log 11). -/
def Obligations.InvariantHoldsAtReset : Prop :=
  ∀ c : Config, (State.resetOf c).Inv

/-- Every step keeps the invariant: BBSTC ends it idle with its lines at the idle levels (R32), one byte per digit (R21),
every brightness nibble's bit 3 zero (R23, R24), ERRINFO 0 without an error (R151), and reset values while RST is high.
That every step ends with the sequencer's internals cleared (`seq = seqIdle`) is the model's choice (DESIGN CHOICE, log 11). -/
def Obligations.EveryStepKeepsTheInvariant : Prop :=
  ∀ s t : State, s.Inv → step s = .next t → t.Inv

/-- No step changes the configuration (R35; log 2). -/
def Obligations.ConfigurationNeverChanges : Prop :=
  ∀ s t : State, step s = .next t → t.cfg = s.cfg

/-- No state is stuck: every step of every state answers a next state (R71 is total over all words; R159: no trap). -/
def Obligations.EveryStepAnswersANextState : Prop :=
  ∀ s : State, ∃ t, step s = .next t

/-! ## Claims under R160 -/

/-- Every OVERLAP is a fault of the strict step (R160), also where an earlier error keeps its code in ERR (R152): if, in the step
of an accepted command that ends with RST low, a CMD write is among the acts HOST has taken while the command ran, at whichever
point, the strict step faults, and with Fault.overlap where ERR was 0. That HOST's acts are the list `env.inbox`, taken one at
each point, is the model's choice (DESIGN CHOICE, log 6). -/
def Obligations.EveryOverlapFaultsTheStrictStep : Prop :=
  ∀ (s t : State) (c : Word) (i : Instr) (acts taken : List HostAct),
    s.env.rst = false → s.busy = false → s.env.inbox = .writeCmd c :: acts → decode c = .ok i →
    step s = .next t → t.env.rst = false → acts = taken ++ t.env.inbox → (∃ w, .writeCmd w ∈ taken) →
      (∃ f, strictStep s = .fault f) ∧ (s.err = .none → strictStep s = .fault .overlap)

/-- The premise R160 asks of a claim, `ERR = 0` at its end: with no reset, it says that HOST has written no CMD word while the
command ran, and that the command ended as it does undisturbed but for what HOST has read. (That HOST's acts are the list
`env.inbox` and its reads the list `env.reads` is the model's choice: DESIGN CHOICE, log 6.) -/
def Obligations.NoErrorAtTheEndMeansNoOverlap : Prop :=
  ∀ (i : Instr) (s t : State) (acts : List HostAct),
    s.env.rst = false → exec i (s.setInbox acts) = .next t → t.env.rst = false → t.err = .none →
      ∃ taken u, acts = taken ++ t.env.inbox ∧ (∀ w, .writeCmd w ∉ taken) ∧ exec i (s.setInbox []) = .next u ∧
        t = { u with env := { u.env with inbox := t.env.inbox, reads := t.env.reads } }
end

