-- ==== Sys2Proof/Laws/State.lean ====
section
/-! SUPPORT. One lemma per field per update of State, all by rfl. The derived updates (setDig, setInbox, emit and so on)
are one of these applied to a record of one part, and get their own lemma for the part they write. -/

namespace Sys2Proof.Machine

variable (s : State)

@[simp] theorem State.setDisp_cfg (d : Display) : (s.setDisp d).cfg = s.cfg := rfl
@[simp] theorem State.setDisp_disp (d : Display) : (s.setDisp d).disp = d := rfl
@[simp] theorem State.setDisp_wiring (d : Display) : (s.setDisp d).wiring = s.wiring := rfl
@[simp] theorem State.setDisp_rdata (d : Display) : (s.setDisp d).rdata = s.rdata := rfl
@[simp] theorem State.setDisp_busy (d : Display) : (s.setDisp d).busy = s.busy := rfl
@[simp] theorem State.setDisp_err (d : Display) : (s.setDisp d).err = s.err := rfl
@[simp] theorem State.setDisp_errinfo (d : Display) : (s.setDisp d).errinfo = s.errinfo := rfl
@[simp] theorem State.setDisp_pins (d : Display) : (s.setDisp d).pins = s.pins := rfl
@[simp] theorem State.setDisp_seq (d : Display) : (s.setDisp d).seq = s.seq := rfl
@[simp] theorem State.setDisp_env (d : Display) : (s.setDisp d).env = s.env := rfl

@[simp] theorem State.setWiring_cfg (w : Wiring) : (s.setWiring w).cfg = s.cfg := rfl
@[simp] theorem State.setWiring_disp (w : Wiring) : (s.setWiring w).disp = s.disp := rfl
@[simp] theorem State.setWiring_wiring (w : Wiring) : (s.setWiring w).wiring = w := rfl
@[simp] theorem State.setWiring_rdata (w : Wiring) : (s.setWiring w).rdata = s.rdata := rfl
@[simp] theorem State.setWiring_busy (w : Wiring) : (s.setWiring w).busy = s.busy := rfl
@[simp] theorem State.setWiring_err (w : Wiring) : (s.setWiring w).err = s.err := rfl
@[simp] theorem State.setWiring_errinfo (w : Wiring) : (s.setWiring w).errinfo = s.errinfo := rfl
@[simp] theorem State.setWiring_pins (w : Wiring) : (s.setWiring w).pins = s.pins := rfl
@[simp] theorem State.setWiring_seq (w : Wiring) : (s.setWiring w).seq = s.seq := rfl
@[simp] theorem State.setWiring_env (w : Wiring) : (s.setWiring w).env = s.env := rfl

@[simp] theorem State.setRdata_cfg (b : Byte) : (s.setRdata b).cfg = s.cfg := rfl
@[simp] theorem State.setRdata_disp (b : Byte) : (s.setRdata b).disp = s.disp := rfl
@[simp] theorem State.setRdata_wiring (b : Byte) : (s.setRdata b).wiring = s.wiring := rfl
@[simp] theorem State.setRdata_rdata (b : Byte) : (s.setRdata b).rdata = b := rfl
@[simp] theorem State.setRdata_busy (b : Byte) : (s.setRdata b).busy = s.busy := rfl
@[simp] theorem State.setRdata_err (b : Byte) : (s.setRdata b).err = s.err := rfl
@[simp] theorem State.setRdata_errinfo (b : Byte) : (s.setRdata b).errinfo = s.errinfo := rfl
@[simp] theorem State.setRdata_pins (b : Byte) : (s.setRdata b).pins = s.pins := rfl
@[simp] theorem State.setRdata_seq (b : Byte) : (s.setRdata b).seq = s.seq := rfl
@[simp] theorem State.setRdata_env (b : Byte) : (s.setRdata b).env = s.env := rfl

@[simp] theorem State.setBusy_cfg (b : Bool) : (s.setBusy b).cfg = s.cfg := rfl
@[simp] theorem State.setBusy_disp (b : Bool) : (s.setBusy b).disp = s.disp := rfl
@[simp] theorem State.setBusy_wiring (b : Bool) : (s.setBusy b).wiring = s.wiring := rfl
@[simp] theorem State.setBusy_rdata (b : Bool) : (s.setBusy b).rdata = s.rdata := rfl
@[simp] theorem State.setBusy_busy (b : Bool) : (s.setBusy b).busy = b := rfl
@[simp] theorem State.setBusy_err (b : Bool) : (s.setBusy b).err = s.err := rfl
@[simp] theorem State.setBusy_errinfo (b : Bool) : (s.setBusy b).errinfo = s.errinfo := rfl
@[simp] theorem State.setBusy_pins (b : Bool) : (s.setBusy b).pins = s.pins := rfl
@[simp] theorem State.setBusy_seq (b : Bool) : (s.setBusy b).seq = s.seq := rfl
@[simp] theorem State.setBusy_env (b : Bool) : (s.setBusy b).env = s.env := rfl

@[simp] theorem State.setErr_cfg (e : ErrCode) (w : Word) : (s.setErr e w).cfg = s.cfg := rfl
@[simp] theorem State.setErr_disp (e : ErrCode) (w : Word) : (s.setErr e w).disp = s.disp := rfl
@[simp] theorem State.setErr_wiring (e : ErrCode) (w : Word) : (s.setErr e w).wiring = s.wiring := rfl
@[simp] theorem State.setErr_rdata (e : ErrCode) (w : Word) : (s.setErr e w).rdata = s.rdata := rfl
@[simp] theorem State.setErr_busy (e : ErrCode) (w : Word) : (s.setErr e w).busy = s.busy := rfl
@[simp] theorem State.setErr_err (e : ErrCode) (w : Word) : (s.setErr e w).err = e := rfl
@[simp] theorem State.setErr_errinfo (e : ErrCode) (w : Word) : (s.setErr e w).errinfo = w := rfl
@[simp] theorem State.setErr_pins (e : ErrCode) (w : Word) : (s.setErr e w).pins = s.pins := rfl
@[simp] theorem State.setErr_seq (e : ErrCode) (w : Word) : (s.setErr e w).seq = s.seq := rfl
@[simp] theorem State.setErr_env (e : ErrCode) (w : Word) : (s.setErr e w).env = s.env := rfl

@[simp] theorem State.setPins_cfg (p : Pins) : (s.setPins p).cfg = s.cfg := rfl
@[simp] theorem State.setPins_disp (p : Pins) : (s.setPins p).disp = s.disp := rfl
@[simp] theorem State.setPins_wiring (p : Pins) : (s.setPins p).wiring = s.wiring := rfl
@[simp] theorem State.setPins_rdata (p : Pins) : (s.setPins p).rdata = s.rdata := rfl
@[simp] theorem State.setPins_busy (p : Pins) : (s.setPins p).busy = s.busy := rfl
@[simp] theorem State.setPins_err (p : Pins) : (s.setPins p).err = s.err := rfl
@[simp] theorem State.setPins_errinfo (p : Pins) : (s.setPins p).errinfo = s.errinfo := rfl
@[simp] theorem State.setPins_pins (p : Pins) : (s.setPins p).pins = p := rfl
@[simp] theorem State.setPins_seq (p : Pins) : (s.setPins p).seq = s.seq := rfl
@[simp] theorem State.setPins_env (p : Pins) : (s.setPins p).env = s.env := rfl

@[simp] theorem State.setSeq_cfg (q : Sequencer) : (s.setSeq q).cfg = s.cfg := rfl
@[simp] theorem State.setSeq_disp (q : Sequencer) : (s.setSeq q).disp = s.disp := rfl
@[simp] theorem State.setSeq_wiring (q : Sequencer) : (s.setSeq q).wiring = s.wiring := rfl
@[simp] theorem State.setSeq_rdata (q : Sequencer) : (s.setSeq q).rdata = s.rdata := rfl
@[simp] theorem State.setSeq_busy (q : Sequencer) : (s.setSeq q).busy = s.busy := rfl
@[simp] theorem State.setSeq_err (q : Sequencer) : (s.setSeq q).err = s.err := rfl
@[simp] theorem State.setSeq_errinfo (q : Sequencer) : (s.setSeq q).errinfo = s.errinfo := rfl
@[simp] theorem State.setSeq_pins (q : Sequencer) : (s.setSeq q).pins = s.pins := rfl
@[simp] theorem State.setSeq_seq (q : Sequencer) : (s.setSeq q).seq = q := rfl
@[simp] theorem State.setSeq_env (q : Sequencer) : (s.setSeq q).env = s.env := rfl

@[simp] theorem State.setEnv_cfg (e : Env) : (s.setEnv e).cfg = s.cfg := rfl
@[simp] theorem State.setEnv_disp (e : Env) : (s.setEnv e).disp = s.disp := rfl
@[simp] theorem State.setEnv_wiring (e : Env) : (s.setEnv e).wiring = s.wiring := rfl
@[simp] theorem State.setEnv_rdata (e : Env) : (s.setEnv e).rdata = s.rdata := rfl
@[simp] theorem State.setEnv_busy (e : Env) : (s.setEnv e).busy = s.busy := rfl
@[simp] theorem State.setEnv_err (e : Env) : (s.setEnv e).err = s.err := rfl
@[simp] theorem State.setEnv_errinfo (e : Env) : (s.setEnv e).errinfo = s.errinfo := rfl
@[simp] theorem State.setEnv_pins (e : Env) : (s.setEnv e).pins = s.pins := rfl
@[simp] theorem State.setEnv_seq (e : Env) : (s.setEnv e).seq = s.seq := rfl
@[simp] theorem State.setEnv_env (e : Env) : (s.setEnv e).env = e := rfl

@[simp] theorem State.setDig_cfg (l : List Byte) : (s.setDig l).cfg = s.cfg := rfl
@[simp] theorem State.setDig_disp (l : List Byte) : (s.setDig l).disp = { s.disp with dig := l } := rfl
@[simp] theorem State.setDig_wiring (l : List Byte) : (s.setDig l).wiring = s.wiring := rfl
@[simp] theorem State.setDig_rdata (l : List Byte) : (s.setDig l).rdata = s.rdata := rfl
@[simp] theorem State.setDig_busy (l : List Byte) : (s.setDig l).busy = s.busy := rfl
@[simp] theorem State.setDig_err (l : List Byte) : (s.setDig l).err = s.err := rfl
@[simp] theorem State.setDig_errinfo (l : List Byte) : (s.setDig l).errinfo = s.errinfo := rfl
@[simp] theorem State.setDig_pins (l : List Byte) : (s.setDig l).pins = s.pins := rfl
@[simp] theorem State.setDig_seq (l : List Byte) : (s.setDig l).seq = s.seq := rfl
@[simp] theorem State.setDig_env (l : List Byte) : (s.setDig l).env = s.env := rfl

@[simp] theorem State.setBrt_cfg (v : Vector Byte 3) : (s.setBrt v).cfg = s.cfg := rfl
@[simp] theorem State.setBrt_disp (v : Vector Byte 3) : (s.setBrt v).disp = { s.disp with brt := v } := rfl
@[simp] theorem State.setBrt_wiring (v : Vector Byte 3) : (s.setBrt v).wiring = s.wiring := rfl
@[simp] theorem State.setBrt_rdata (v : Vector Byte 3) : (s.setBrt v).rdata = s.rdata := rfl
@[simp] theorem State.setBrt_busy (v : Vector Byte 3) : (s.setBrt v).busy = s.busy := rfl
@[simp] theorem State.setBrt_err (v : Vector Byte 3) : (s.setBrt v).err = s.err := rfl
@[simp] theorem State.setBrt_errinfo (v : Vector Byte 3) : (s.setBrt v).errinfo = s.errinfo := rfl
@[simp] theorem State.setBrt_pins (v : Vector Byte 3) : (s.setBrt v).pins = s.pins := rfl
@[simp] theorem State.setBrt_seq (v : Vector Byte 3) : (s.setBrt v).seq = s.seq := rfl
@[simp] theorem State.setBrt_env (v : Vector Byte 3) : (s.setBrt v).env = s.env := rfl

@[simp] theorem State.setLbrt_cfg (v : Vector Byte 4) : (s.setLbrt v).cfg = s.cfg := rfl
@[simp] theorem State.setLbrt_disp (v : Vector Byte 4) : (s.setLbrt v).disp = { s.disp with lbrt := v } := rfl
@[simp] theorem State.setLbrt_wiring (v : Vector Byte 4) : (s.setLbrt v).wiring = s.wiring := rfl
@[simp] theorem State.setLbrt_rdata (v : Vector Byte 4) : (s.setLbrt v).rdata = s.rdata := rfl
@[simp] theorem State.setLbrt_busy (v : Vector Byte 4) : (s.setLbrt v).busy = s.busy := rfl
@[simp] theorem State.setLbrt_err (v : Vector Byte 4) : (s.setLbrt v).err = s.err := rfl
@[simp] theorem State.setLbrt_errinfo (v : Vector Byte 4) : (s.setLbrt v).errinfo = s.errinfo := rfl
@[simp] theorem State.setLbrt_pins (v : Vector Byte 4) : (s.setLbrt v).pins = s.pins := rfl
@[simp] theorem State.setLbrt_seq (v : Vector Byte 4) : (s.setLbrt v).seq = s.seq := rfl
@[simp] theorem State.setLbrt_env (v : Vector Byte 4) : (s.setLbrt v).env = s.env := rfl

@[simp] theorem State.setLstate_cfg (b : Byte) : (s.setLstate b).cfg = s.cfg := rfl
@[simp] theorem State.setLstate_disp (b : Byte) : (s.setLstate b).disp = { s.disp with lstate := b } := rfl
@[simp] theorem State.setLstate_wiring (b : Byte) : (s.setLstate b).wiring = s.wiring := rfl
@[simp] theorem State.setLstate_rdata (b : Byte) : (s.setLstate b).rdata = s.rdata := rfl
@[simp] theorem State.setLstate_busy (b : Byte) : (s.setLstate b).busy = s.busy := rfl
@[simp] theorem State.setLstate_err (b : Byte) : (s.setLstate b).err = s.err := rfl
@[simp] theorem State.setLstate_errinfo (b : Byte) : (s.setLstate b).errinfo = s.errinfo := rfl
@[simp] theorem State.setLstate_pins (b : Byte) : (s.setLstate b).pins = s.pins := rfl
@[simp] theorem State.setLstate_seq (b : Byte) : (s.setLstate b).seq = s.seq := rfl
@[simp] theorem State.setLstate_env (b : Byte) : (s.setLstate b).env = s.env := rfl

@[simp] theorem State.setInbox_cfg (l : List HostAct) : (s.setInbox l).cfg = s.cfg := rfl
@[simp] theorem State.setInbox_disp (l : List HostAct) : (s.setInbox l).disp = s.disp := rfl
@[simp] theorem State.setInbox_wiring (l : List HostAct) : (s.setInbox l).wiring = s.wiring := rfl
@[simp] theorem State.setInbox_rdata (l : List HostAct) : (s.setInbox l).rdata = s.rdata := rfl
@[simp] theorem State.setInbox_busy (l : List HostAct) : (s.setInbox l).busy = s.busy := rfl
@[simp] theorem State.setInbox_err (l : List HostAct) : (s.setInbox l).err = s.err := rfl
@[simp] theorem State.setInbox_errinfo (l : List HostAct) : (s.setInbox l).errinfo = s.errinfo := rfl
@[simp] theorem State.setInbox_pins (l : List HostAct) : (s.setInbox l).pins = s.pins := rfl
@[simp] theorem State.setInbox_seq (l : List HostAct) : (s.setInbox l).seq = s.seq := rfl
@[simp] theorem State.setInbox_env (l : List HostAct) : (s.setInbox l).env = { s.env with inbox := l } := rfl

@[simp] theorem State.emit_cfg (e : WireEvent) : (s.emit e).cfg = s.cfg := rfl
@[simp] theorem State.emit_disp (e : WireEvent) : (s.emit e).disp = s.disp := rfl
@[simp] theorem State.emit_wiring (e : WireEvent) : (s.emit e).wiring = s.wiring := rfl
@[simp] theorem State.emit_rdata (e : WireEvent) : (s.emit e).rdata = s.rdata := rfl
@[simp] theorem State.emit_busy (e : WireEvent) : (s.emit e).busy = s.busy := rfl
@[simp] theorem State.emit_err (e : WireEvent) : (s.emit e).err = s.err := rfl
@[simp] theorem State.emit_errinfo (e : WireEvent) : (s.emit e).errinfo = s.errinfo := rfl
@[simp] theorem State.emit_pins (e : WireEvent) : (s.emit e).pins = s.pins := rfl
@[simp] theorem State.emit_seq (e : WireEvent) : (s.emit e).seq = s.seq := rfl
@[simp] theorem State.emit_env (e : WireEvent) : (s.emit e).env = { s.env with wire := e :: s.env.wire } := rfl

@[simp] theorem State.recordRead_cfg (r : HostRead) : (s.recordRead r).cfg = s.cfg := rfl
@[simp] theorem State.recordRead_disp (r : HostRead) : (s.recordRead r).disp = s.disp := rfl
@[simp] theorem State.recordRead_wiring (r : HostRead) : (s.recordRead r).wiring = s.wiring := rfl
@[simp] theorem State.recordRead_rdata (r : HostRead) : (s.recordRead r).rdata = s.rdata := rfl
@[simp] theorem State.recordRead_busy (r : HostRead) : (s.recordRead r).busy = s.busy := rfl
@[simp] theorem State.recordRead_err (r : HostRead) : (s.recordRead r).err = s.err := rfl
@[simp] theorem State.recordRead_errinfo (r : HostRead) : (s.recordRead r).errinfo = s.errinfo := rfl
@[simp] theorem State.recordRead_pins (r : HostRead) : (s.recordRead r).pins = s.pins := rfl
@[simp] theorem State.recordRead_seq (r : HostRead) : (s.recordRead r).seq = s.seq := rfl
@[simp] theorem State.recordRead_env (r : HostRead) : (s.recordRead r).env = { s.env with reads := r :: s.env.reads } := rfl

@[simp] theorem State.drawn_cfg : (s.drawn).cfg = s.cfg := rfl
@[simp] theorem State.drawn_disp : (s.drawn).disp = s.disp := rfl
@[simp] theorem State.drawn_wiring : (s.drawn).wiring = s.wiring := rfl
@[simp] theorem State.drawn_rdata : (s.drawn).rdata = s.rdata := rfl
@[simp] theorem State.drawn_busy : (s.drawn).busy = s.busy := rfl
@[simp] theorem State.drawn_err : (s.drawn).err = s.err := rfl
@[simp] theorem State.drawn_errinfo : (s.drawn).errinfo = s.errinfo := rfl
@[simp] theorem State.drawn_pins : (s.drawn).pins = s.pins := rfl
@[simp] theorem State.drawn_seq : (s.drawn).seq = s.seq := rfl
@[simp] theorem State.drawn_env : (s.drawn).env = { s.env with dioIn := s.env.dioIn.tail, draws := s.env.draws + 1 } := rfl

@[simp] theorem State.releaseRst_cfg : (s.releaseRst).cfg = s.cfg := rfl
@[simp] theorem State.releaseRst_disp : (s.releaseRst).disp = s.disp := rfl
@[simp] theorem State.releaseRst_wiring : (s.releaseRst).wiring = s.wiring := rfl
@[simp] theorem State.releaseRst_rdata : (s.releaseRst).rdata = s.rdata := rfl
@[simp] theorem State.releaseRst_busy : (s.releaseRst).busy = s.busy := rfl
@[simp] theorem State.releaseRst_err : (s.releaseRst).err = s.err := rfl
@[simp] theorem State.releaseRst_errinfo : (s.releaseRst).errinfo = s.errinfo := rfl
@[simp] theorem State.releaseRst_pins : (s.releaseRst).pins = s.pins := rfl
@[simp] theorem State.releaseRst_seq : (s.releaseRst).seq = s.seq := rfl
@[simp] theorem State.releaseRst_env : (s.releaseRst).env = { s.env with rst := false } := rfl

@[simp] theorem State.complete_cfg : s.complete.cfg = s.cfg := rfl
@[simp] theorem State.complete_disp : s.complete.disp = s.disp := rfl
@[simp] theorem State.complete_wiring : s.complete.wiring = s.wiring := rfl
@[simp] theorem State.complete_rdata : s.complete.rdata = s.rdata := rfl
@[simp] theorem State.complete_busy : s.complete.busy = false := rfl
@[simp] theorem State.complete_err : s.complete.err = s.err := rfl
@[simp] theorem State.complete_errinfo : s.complete.errinfo = s.errinfo := rfl
@[simp] theorem State.complete_pins : s.complete.pins = s.pins := rfl
@[simp] theorem State.complete_seq : s.complete.seq = seqIdle := rfl
@[simp] theorem State.complete_env : s.complete.env = s.env := rfl

end Sys2Proof.Machine
end

