-- ==== Sys2Proof/Laws/Ops.lean ====
section
/-! SUPPORT. What the shared operations do, said once: HOST's points, a move of the sequencer, a whole transaction, and the induction over a command's moves. -/

namespace Sys2Proof.Machine

/-! What one write transaction leaves in each field. -/

@[simp] theorem afterSend_cfg (s : State) (F : List Byte) : (s.afterSend F).cfg = s.cfg := rfl
@[simp] theorem afterSend_disp (s : State) (F : List Byte) : (s.afterSend F).disp = s.disp := rfl
@[simp] theorem afterSend_wiring (s : State) (F : List Byte) : (s.afterSend F).wiring = s.wiring := rfl
@[simp] theorem afterSend_rdata (s : State) (F : List Byte) : (s.afterSend F).rdata = s.rdata := rfl
@[simp] theorem afterSend_busy (s : State) (F : List Byte) : (s.afterSend F).busy = false := rfl
@[simp] theorem afterSend_err (s : State) (F : List Byte) : (s.afterSend F).err = s.err := rfl
@[simp] theorem afterSend_errinfo (s : State) (F : List Byte) : (s.afterSend F).errinfo = s.errinfo := rfl
@[simp] theorem afterSend_seq (s : State) (F : List Byte) : (s.afterSend F).seq = seqIdle := rfl
@[simp] theorem afterSend_pins (s : State) (F : List Byte) :
    (s.afterSend F).pins = { s.pins with sel := true, clk := true, dioO := lastBit F } := rfl
@[simp] theorem afterSend_env (s : State) (F : List Byte) :
    (s.afterSend F).env = { s.env with wire := (sendEvents F).reverse ++ s.env.wire } := rfl

theorem trace_afterSend (s : State) (F : List Byte) : (s.afterSend F).trace = s.trace ++ sendEvents F := by
  simp [State.trace]

/-! HOST's points. -/

/-- ERR marks a fault exactly when it is not 0 (R160). -/
@[simp] theorem faultOf_eq_none (e : ErrCode) : faultOf e = none ↔ e = .none := by cases e <;> simp [faultOf]

theorem hostPoint_quiet (s : State) (h : s.Quiet) : s.hostPoint = s := by
  simp [State.hostPoint, h]

/-- The first error is recorded, and nothing else changes (R152). -/
theorem raiseError_cases (s : State) (code : ErrCode) (w : Word) :
    (s.err = .none ∧ s.raiseError code w = s.setErr code w) ∨ (s.err ≠ .none ∧ s.raiseError code w = s) := by
  by_cases h : s.err = .none <;> simp [State.raiseError, h]

/-- What a point can do while a command runs: nothing (no act, or a poll), or the next act is taken, and then it is
quiet, records OVERLAP, records a read, releases RST, or abandons the command. -/
theorem hostPoint_busy_cases (s : State) (hb : s.busy = true) :
    s.hostPoint = s ∨
    ∃ a rest, s.env.inbox = a :: rest ∧
      (s.hostPoint = s.setInbox rest ∨
       (∃ w, a = .writeCmd w ∧ s.hostPoint = (s.setInbox rest).raiseError .overlap w) ∨
       (a = .readStatus ∧ s.hostPoint = (s.setInbox rest).recordRead (.status s.status)) ∨
       (a = .readErrinfo ∧ s.hostPoint = (s.setInbox rest).recordRead (.errinfo s.errinfo)) ∨
       (a = .setRst false ∧ s.hostPoint = (s.setInbox rest).releaseRst) ∨
       (a = .setRst true ∧ s.hostPoint = (s.setInbox rest).assertRst)) := by
  cases hi : s.env.inbox with
  | nil => exact .inl (hostPoint_quiet s hi)
  | cons a rest =>
    cases a with
    | quiet => exact .inr ⟨_, _, rfl, .inl (by simp [State.hostPoint, hi, State.hostAct])⟩
    | writeCmd w =>
      exact .inr ⟨_, _, rfl, .inr (.inl ⟨w, rfl, by simp [State.hostPoint, hi, State.hostAct, hb]⟩)⟩
    | readStatus =>
      exact .inr ⟨_, _, rfl, .inr (.inr (.inl ⟨rfl, by simp [State.hostPoint, hi, State.hostAct, State.status]⟩))⟩
    | readErrinfo =>
      exact .inr ⟨_, _, rfl, .inr (.inr (.inr (.inl ⟨rfl, by simp [State.hostPoint, hi, State.hostAct]⟩)))⟩
    | poll => exact .inl (by simp [State.hostPoint, hi, hb])
    | setRst l =>
      cases l with
      | false => exact .inr ⟨_, _, rfl, .inr (.inr (.inr (.inr (.inl ⟨rfl, by simp [State.hostPoint, hi, State.hostAct]⟩))))⟩
      | true => exact .inr ⟨_, _, rfl, .inr (.inr (.inr (.inr (.inr ⟨rfl, by simp [State.hostPoint, hi, State.hostAct]⟩))))⟩

/-! One move of the sequencer writes no status register, no configuration, no wiring, and nothing HOST does. -/

@[simp] theorem runOp_cfg (s : State) (op : MicroOp) : (s.runOp op).cfg = s.cfg := by cases op <;> rfl
@[simp] theorem runOp_wiring (s : State) (op : MicroOp) : (s.runOp op).wiring = s.wiring := by cases op <;> rfl
@[simp] theorem runOp_busy (s : State) (op : MicroOp) : (s.runOp op).busy = s.busy := by cases op <;> rfl
@[simp] theorem runOp_err (s : State) (op : MicroOp) : (s.runOp op).err = s.err := by cases op <;> rfl
@[simp] theorem runOp_errinfo (s : State) (op : MicroOp) : (s.runOp op).errinfo = s.errinfo := by cases op <;> rfl
@[simp] theorem runOp_inbox (s : State) (op : MicroOp) : (s.runOp op).env.inbox = s.env.inbox := by cases op <;> rfl
@[simp] theorem runOp_rst (s : State) (op : MicroOp) : (s.runOp op).env.rst = s.env.rst := by cases op <;> rfl
@[simp] theorem runOp_reads (s : State) (op : MicroOp) : (s.runOp op).env.reads = s.env.reads := by cases op <;> rfl
@[simp] theorem runOp_cuts (s : State) (op : MicroOp) : (s.runOp op).env.cuts = s.env.cuts := by cases op <;> rfl

/-- The moves yet to come play no part in a move. -/
theorem runOp_setPhase (s : State) (p : List MicroOp) (op : MicroOp) :
    (s.setSeq { s.seq with phase := p }).runOp op =
      (s.runOp op).setSeq { (s.runOp op).seq with phase := p } := by
  cases op <;> rfl

theorem foldl_setPhase_complete (ops : List MicroOp) (s : State) (p : List MicroOp) :
    (ops.foldl State.runOp (s.setSeq { s.seq with phase := p })).complete = (ops.foldl State.runOp s).complete := by
  induction ops generalizing s with
  | nil => rfl
  | cons op rest ih => simp only [List.foldl_cons, runOp_setPhase, ih]

/-- A command whose HOST does nothing is its moves one after the other, then completion. -/
theorem runOps_quiet (ops : List MicroOp) (s : State) (hb : s.busy = true) (hq : s.Quiet) :
    s.runOps ops = (ops.foldl State.runOp s).complete := by
  induction ops generalizing s with
  | nil => rfl
  | cons op rest ih =>
    have hp : (s.setSeq { s.seq with phase := op :: rest }).hostPoint = s.setSeq { s.seq with phase := op :: rest } :=
      hostPoint_quiet _ (by simpa [State.Quiet] using hq)
    simp only [State.runOps, hp, State.setSeq_busy, hb, if_true]
    rw [ih _ (by simp [hb]) (by simpa [State.Quiet] using hq), runOp_setPhase, foldl_setPhase_complete]
    rfl

theorem command_quiet (ops : List MicroOp) (s : State) (hq : s.Quiet) :
    s.command ops = (ops.foldl State.runOp (s.setBusy true)).complete :=
  runOps_quiet ops _ rfl hq

/-- Induction over a command: a property that HOST's points, the command's own moves and completion keep holds of the
state the command ends in. -/
theorem runOps_induct {P : State → Prop} (ops : List MicroOp) (s : State)
    (hPhase : ∀ s p, P s → P (s.setSeq { s.seq with phase := p }))
    (hHost : ∀ s, s.busy = true → P s → P s.hostPoint)
    (hOp : ∀ s op, op ∈ ops → s.busy = true → P s → P (s.runOp op))
    (hDone : ∀ s, P s → P s.complete) (hb : s.busy = true) (h : P s) : P (s.runOps ops) := by
  induction ops generalizing s with
  | nil => exact hDone s h
  | cons op rest ih =>
    simp only [State.runOps]
    have h1 := hHost _ (by simpa using hb) (hPhase s (op :: rest) h)
    split
    · rename_i hb1
      exact ih _ (fun s o ho => hOp s o (by simp [ho])) (by simpa using hb1) (hOp _ op (by simp) hb1 h1)
    · exact h1

/-! A write transaction. -/

/-- Where the sequencer stands after `L` bytes of its frame. -/
def seqAfterBytes (q : Sequencer) (L : Nat) : Sequencer :=
  if L = 0 then q else { q with dly := 0, byteIx := L - 1, bitIx := 7 }

/-- A machine whose clock is high after the first `L` bytes of its frame buffer have been driven. -/
def State.afterBytes (s : State) (L : Nat) : State :=
  { s with
    seq := seqAfterBytes s.seq L
    pins := { s.pins with clk := true, dioO := if L = 0 then s.pins.dioO else frameBit s.seq.frame (L - 1) 7 }
    env := { s.env with wire := (((List.range L).flatMap fun k => byteEvents (s.seq.frame.getD k 0#8)).reverse ++ s.env.wire) } }

theorem foldl_bitOps (s : State) (k i : Nat) :
    (.dioDrive k i :: pulseOps).foldl State.runOp s =
      { s with
        seq := { s.seq with dly := 0, byteIx := k, bitIx := i }
        pins := { s.pins with clk := true, dioO := frameBit s.seq.frame k i }
        env := { s.env with wire := (bitEvents (frameBit s.seq.frame k i)).reverse ++ s.env.wire } } := by
  simp [pulseOps, holdOps, State.runOp, State.setSeq, State.setPins, State.emit, State.setEnv, bitEvents]

theorem foldl_writeBitsOps (s : State) (k : Nat) :
    (writeBitsOps k).foldl State.runOp s =
      { s with
        seq := { s.seq with dly := 0, byteIx := k, bitIx := 7 }
        pins := { s.pins with clk := true, dioO := frameBit s.seq.frame k 7 }
        env := { s.env with wire := (byteEvents (s.seq.frame.getD k 0#8)).reverse ++ s.env.wire } } := by
  have h8 : List.range 8 = [0, 1, 2, 3, 4, 5, 6, 7] := rfl
  simp only [writeBitsOps, byteEvents, h8, List.flatMap_cons, List.flatMap_nil, List.foldl_append, foldl_bitOps,
    List.append_nil, List.reverse_append, List.append_assoc, frameBit]

theorem foldl_bytes (s : State) (hc : s.pins.clk = true) (L : Nat) :
    ((List.range L).flatMap writeBitsOps).foldl State.runOp s = s.afterBytes L := by
  induction L with
  | zero => obtain ⟨_, _, _, _, _, _, _, ⟨_, _, _, _⟩, _, _⟩ := s; simp_all [State.afterBytes, seqAfterBytes]
  | succ L ih =>
    rw [List.range_succ, List.flatMap_append, List.foldl_append, ih]
    simp only [List.flatMap_cons, List.flatMap_nil, List.append_nil, foldl_writeBitsOps]
    by_cases hL : L = 0 <;>
      simp [State.afterBytes, seqAfterBytes, hL, List.range_succ]

theorem range_flatMap_getD (F : List Byte) :
    (List.range F.length).flatMap (fun k => byteEvents (F.getD k 0#8)) = F.flatMap byteEvents := by
  induction F with
  | nil => rfl
  | cons b rest ih => simp [List.range_succ_eq_map, List.flatMap_map, ← ih]

theorem frameBit_last (F : List Byte) (h : F ≠ []) : frameBit F (F.length - 1) 7 = lastBit F := by
  have hl : 0 < F.length := List.length_pos_iff.mpr h
  simp [frameBit, lastBit, List.getLastD_eq_getLast?, List.getLast?_eq_getElem?, List.getD_eq_getElem?_getD]

theorem foldl_sendHead (s : State) :
    ([.clkHigh, .selLow] ++ holdOps .setup : List MicroOp).foldl State.runOp s =
      { s with
        seq := { s.seq with dly := 0 }
        pins := { s.pins with sel := false, clk := true }
        env := { s.env with wire := .hold .setup :: .sel false :: .clk true :: s.env.wire } } := by
  simp [holdOps, State.runOp, State.setSeq, State.setPins, State.emit, State.setEnv]

theorem foldl_sendTail (s : State) :
    (holdOps .setup ++ [.selHigh] : List MicroOp).foldl State.runOp s =
      { s with
        seq := { s.seq with dly := 0 }
        pins := { s.pins with sel := true }
        env := { s.env with wire := .sel true :: .hold .setup :: s.env.wire } } := by
  simp [holdOps, State.runOp, State.setSeq, State.setPins, State.emit, State.setEnv]

/-- The moves of one whole write transaction of the frame in the buffer (R97). -/
theorem foldl_sendOps (s : State) (F : List Byte) (hF : s.seq.frame = F) (hne : F ≠ []) :
    (sendOps F.length).foldl State.runOp s =
      { s with
        seq := { s.seq with dly := 0, byteIx := F.length - 1, bitIx := 7 }
        pins := { s.pins with sel := true, clk := true, dioO := lastBit F }
        env := { s.env with wire := (sendEvents F).reverse ++ s.env.wire } } := by
  have hl : F.length ≠ 0 := by simpa using hne
  have hsplit : sendOps F.length =
      ([.clkHigh, .selLow] ++ holdOps .setup) ++ ((List.range F.length).flatMap writeBitsOps ++ (holdOps .setup ++ [.selHigh])) := by
    simp [sendOps]
  rw [hsplit, List.foldl_append, List.foldl_append, foldl_sendHead, foldl_bytes _ rfl, foldl_sendTail]
  simp only [State.afterBytes, seqAfterBytes, hF, hl, if_false, frameBit_last F hne, range_flatMap_getD]
  simp [sendEvents]

/-- Compose and send (R113). -/
theorem foldl_frameOps (s : State) (k : FrameKind) (hne : s.frameOf k ≠ []) :
    (s.frameOps k).foldl State.runOp s =
      { s with
        seq := { s.seq with frame := s.frameOf k, dly := 0, byteIx := (s.frameOf k).length - 1, bitIx := 7 }
        pins := { s.pins with sel := true, clk := true, dioO := lastBit (s.frameOf k) }
        env := { s.env with wire := (sendEvents (s.frameOf k)).reverse ++ s.env.wire } } := by
  simp only [State.frameOps, List.foldl_cons]
  rw [foldl_sendOps _ (s.frameOf k) rfl hne]
  rfl

@[simp] theorem frameOf_setBusy (s : State) (b : Bool) (k : FrameKind) : (s.setBusy b).frameOf k = s.frameOf k := by
  cases k <;> rfl

/-- A display command's phases (b) and (c), HOST doing nothing: one whole transaction of the frame composed from the
updated registers (R113, R97). -/
theorem transact_quiet (s : State) (k : FrameKind) (hq : s.Quiet) (hne : s.frameOf k ≠ []) :
    s.transact k = s.afterSend (s.frameOf k) := by
  have hk : s.frameOps k = (s.setBusy true).frameOps k := by simp [State.frameOps]
  rw [State.transact, command_quiet _ s hq, List.foldl_append, hk, foldl_frameOps _ k (by simpa using hne),
    frameOf_setBusy]
  simp [State.runOp, State.complete, State.setSeq, State.setBusy, State.afterSend]

/-- An ignored command, HOST doing nothing, changes nothing but that the sequencer is at IDLE (R114). -/
theorem ignored_quiet (s : State) (hq : s.Quiet) : s.ignored = s.complete := by
  rw [State.ignored, command_quiet _ s hq]
  rfl

theorem frameOf_ne_nil (s : State) (k : FrameKind) (h : ∀ l, k = .raw l → l ≠ []) : s.frameOf k ≠ [] := by
  cases k with
  | raw l => exact h l rfl
  | _ => simp [State.frameOf]

/-! A read transaction. -/

theorem dioLevel_eq_coming (s : State) : s.dioLevel = s.coming 0 := by
  cases h : s.env.dioIn <;> simp [State.dioLevel, State.coming, h]

/-- The samples after `n` have been taken are the later ones. -/
theorem coming_drop (s t : State) (n : Nat) (h1 : t.env.dioIn = s.env.dioIn.drop n) (h2 : t.env.draws = s.env.draws + n)
    (j : Nat) : t.coming j = s.coming (n + j) := by
  simp [State.coming, h1, h2, Nat.add_assoc]

theorem coming_congr (s t : State) (h1 : t.env.dioIn = s.env.dioIn) (h2 : t.env.draws = s.env.draws) :
    t.coming = s.coming := by
  funext j
  simp [State.coming, h1, h2]

/-- The accumulator after the first `n` samples (R100). -/
def accAfter (lv : Nat → Bool) (n : Nat) : Byte := (List.range n).foldl (fun acc j => setAccBit acc j (lv j)) 0#8

theorem getLsbD_setAccBit (acc : Byte) (j k : Nat) (b : Bool) (hk : k < 8) :
    (setAccBit acc j b).getLsbD k = if k = j then b else acc.getLsbD k := by
  by_cases h : k = j
  · subst h
    cases b <;> simp [setAccBit, hk]
  · by_cases h2 : k < j
    · simp [setAccBit, hk, h, h2]
    · have h3 : k - j ≠ 0 := by omega
      simp [setAccBit, hk, h, h2, h3]

theorem getLsbD_accAfter (lv : Nat → Bool) (n k : Nat) (hk : k < 8) :
    (accAfter lv n).getLsbD k = (decide (k < n) && lv k) := by
  induction n with
  | zero => simp [accAfter]
  | succ n ih =>
    rw [accAfter, List.range_succ, List.foldl_append]
    simp only [List.foldl_cons, List.foldl_nil, getLsbD_setAccBit _ _ _ _ hk]
    by_cases h : k = n
    · simp [h]
    · rw [if_neg h]
      have h2 : (decide (k < n + 1)) = decide (k < n) := by simp; omega
      rw [h2, ← ih]
      rfl

theorem foldl_readBitOps (s : State) (j : Nat) :
    (readBitOps j).foldl State.runOp s =
      { s with
        seq := { s.seq with dly := 0, bitIx := j, acc := setAccBit s.seq.acc j (s.coming 0) }
        pins := { s.pins with clk := true }
        env := { s.env with
          dioIn := s.env.dioIn.tail
          draws := s.env.draws + 1
          wire := (sampleEvents j (s.coming 0)).reverse ++ s.env.wire } } := by
  rw [← dioLevel_eq_coming]
  simp [readBitOps, holdOps, State.runOp, State.setSeq, State.setPins, State.emit, State.setEnv, State.drawn, sampleEvents,
    State.dioLevel]

/-- A machine with its accumulator at 0 after the first `n` samples, at levels `lv`. -/
def State.afterSamples (s : State) (lv : Nat → Bool) (n : Nat) : State :=
  { s with
    seq := if n = 0 then s.seq else { s.seq with dly := 0, bitIx := n - 1, acc := accAfter lv n }
    pins := if n = 0 then s.pins else { s.pins with clk := true }
    env := { s.env with
      dioIn := s.env.dioIn.drop n
      draws := s.env.draws + n
      wire := ((List.range n).flatMap fun j => sampleEvents j (lv j)).reverse ++ s.env.wire } }

theorem foldl_samples (s : State) (lv : Nat → Bool) (hlv : s.coming = lv) (ha : s.seq.acc = 0#8) (n : Nat) :
    ((List.range n).flatMap readBitOps).foldl State.runOp s = s.afterSamples lv n := by
  induction n with
  | zero => simp [State.afterSamples]
  | succ n ih =>
    rw [List.range_succ, List.flatMap_append, List.foldl_append, ih]
    have hc : (s.afterSamples lv n).coming 0 = lv n := by
      rw [coming_drop s _ n rfl rfl, hlv]
      simp
    have hacc : setAccBit (s.afterSamples lv n).seq.acc n (lv n) = accAfter lv (n + 1) := by
      have h0 : (s.afterSamples lv n).seq.acc = accAfter lv n := by
        by_cases hn : n = 0 <;> simp [State.afterSamples, hn, ha, accAfter]
      rw [h0]
      simp [accAfter, List.range_succ]
    simp only [List.flatMap_cons, List.flatMap_nil, List.append_nil, foldl_readBitOps, hc, hacc]
    by_cases hn : n = 0 <;>
      simp [State.afterSamples, hn, List.range_succ, Nat.add_assoc]

/-- The moves of one whole read transaction with command byte `cmd` in the buffer (R100). -/
theorem foldl_recvOps (s : State) (cmd : Byte) (lv : Nat → Bool) (hlv : s.coming = lv) (hF : s.seq.frame = [cmd]) :
    recvOps.foldl State.runOp s =
      { s with
        seq := { s.seq with dly := 0, byteIx := 0, bitIx := 7, acc := accAfter lv 8 }
        pins := { s.pins with sel := true, clk := true, dioOe := true, dioO := true }
        env := { s.env with
          dioIn := s.env.dioIn.drop 8
          draws := s.env.draws + 8
          wire := (recvEvents cmd lv).reverse ++ s.env.wire } } := by
  have hsplit : recvOps = ([.selLow] ++ holdOps .setup) ++ (writeBitsOps 0 ++ ([.dioRelease, .clearAcc] ++
      ((List.range 8).flatMap readBitOps ++ ([.dioReclaim] ++ holdOps .setup ++ [.selHigh])))) := by
    simp [recvOps]
  have hhead : ([.selLow] ++ holdOps .setup : List MicroOp).foldl State.runOp s =
      { s with
        seq := { s.seq with dly := 0 }
        pins := { s.pins with sel := false }
        env := { s.env with wire := .hold .setup :: .sel false :: s.env.wire } } := by
    simp [holdOps, State.runOp, State.setSeq, State.setPins, State.emit, State.setEnv]
  have hturn : ∀ u : State, ([.dioRelease, .clearAcc] : List MicroOp).foldl State.runOp u =
      { u with
        seq := { u.seq with acc := 0 }
        pins := { u.pins with dioOe := false }
        env := { u.env with wire := .ddirIn :: u.env.wire } } := by
    intro u
    simp [State.runOp, State.setSeq, State.setPins, State.emit, State.setEnv]
  have htail : ∀ u : State, ([.dioReclaim] ++ holdOps .setup ++ [.selHigh] : List MicroOp).foldl State.runOp u =
      { u with
        seq := { u.seq with dly := 0 }
        pins := { u.pins with sel := true, dioOe := true, dioO := true }
        env := { u.env with wire := .sel true :: .hold .setup :: .ddirOut true :: u.env.wire } } := by
    intro u
    simp [holdOps, State.runOp, State.setSeq, State.setPins, State.emit, State.setEnv]
  have hmid : ∀ u : State, u.env.dioIn = s.env.dioIn → u.env.draws = s.env.draws → u.seq.acc = 0#8 →
      ((List.range 8).flatMap readBitOps).foldl State.runOp u = u.afterSamples lv 8 := fun u h1 h2 h3 =>
    foldl_samples u lv ((coming_congr s u h1 h2).trans hlv) h3 8
  rw [hsplit, List.foldl_append, List.foldl_append, List.foldl_append, List.foldl_append, hhead, foldl_writeBitsOps, hturn,
    hmid _ (by simp) (by simp) (by simp), htail]
  simp [State.afterSamples, recvEvents, hF]

/-- READ_BYTE's moves, HOST doing nothing (R102). -/
theorem readByte_quiet (s : State) (a : Nibble) (hq : s.Quiet) :
    s.command (.compose (.readCmd a) :: recvOps ++ [.latchAcc]) =
      { s with
        rdata := accAfter s.coming 8
        busy := false
        seq := seqIdle
        pins := { s.pins with sel := true, clk := true, dioOe := true, dioO := true }
        env := { s.env with
          dioIn := s.env.dioIn.drop 8
          draws := s.env.draws + 8
          wire := (recvEvents (hdrRead s.cfg a) s.coming).reverse ++ s.env.wire } } := by
  rw [command_quiet _ s hq, List.cons_append, List.foldl_cons, List.foldl_append]
  have hf : ((s.setBusy true).runOp (.compose (.readCmd a))).seq.frame = [hdrRead s.cfg a] := rfl
  have hc : ((s.setBusy true).runOp (.compose (.readCmd a))).coming = s.coming := coming_congr s _ rfl rfl
  rw [foldl_recvOps _ _ s.coming hc hf]
  simp [State.runOp, State.complete, State.setSeq, State.setBusy, State.setRdata]

/-! INIT. -/

theorem frameOf_complete (s : State) (k : FrameKind) : s.complete.frameOf k = s.frameOf k := by
  cases k <;> rfl

theorem setBusy_complete (s : State) (b : Bool) : (s.setBusy b).complete = s.complete := rfl

theorem complete_afterSend (s : State) (F : List Byte) : s.complete.afterSend F = s.afterSend F := rfl

/-- One transaction among several, up to the sequencer's internals and BUSY. -/
theorem frameOps_complete (s t : State) (k : FrameKind) (hne : s.frameOf k ≠ [])
    (hl : (t.frameOf k).length = (s.frameOf k).length) :
    ((t.frameOps k).foldl State.runOp s).complete = s.complete.afterSend (s.complete.frameOf k) := by
  have ht : t.frameOps k = s.frameOps k := by simp [State.frameOps, hl]
  rw [ht, foldl_frameOps _ k hne, frameOf_complete]
  simp [State.complete, State.setSeq, State.setBusy, State.afterSend]

/-- A machine in which INIT has zeroed the buffer and set the digit brightness (R116). -/
theorem zeroBuffer_disp (s : State) :
    s.zeroBuffer.disp =
      { dig := List.replicate s.cfg.val.nDigits 0, brt := setAllNib 3 s.cfg.val.defDigBrt, lbrt := Vector.replicate 4 0,
        lstate := 0 } := rfl

/-- INIT, HOST doing nothing: its four transactions in order, with the LED levels set after the first (R116). -/
theorem runInit_quiet (s : State) (hq : s.Quiet) :
    s.runInit =
      ((((s.zeroBuffer.afterSend (s.zeroBuffer.frameOf .conf1)).setLbrt (setAllNib 4 s.cfg.val.defLedBrt)).afterSend
          ((s.zeroBuffer.setLbrt (setAllNib 4 s.cfg.val.defLedBrt)).frameOf .ledbrt)).afterSend
        (s.zeroBuffer.frameOf .digit)).afterSend (s.zeroBuffer.frameOf .dispon) := by
  rw [State.runInit, command_quiet _ _ (by simpa [State.Quiet, State.zeroBuffer] using hq)]
  generalize hz : s.zeroBuffer = z
  have hcfg : z.cfg = s.cfg := by rw [← hz]; rfl
  simp only [State.initOps, List.foldl_append, List.foldl_cons, List.foldl_nil, List.append_assoc, List.cons_append, hcfg]
  generalize h1 : (z.frameOps .conf1).foldl State.runOp (z.setBusy true) = u1
  have e1 : u1.complete = z.afterSend (z.frameOf .conf1) := by
    rw [← h1, frameOps_complete _ _ _ (by simp [State.frameOf]) (by simp), frameOf_complete, frameOf_setBusy,
      setBusy_complete, complete_afterSend]
  generalize h2 : u1.runOp (.fillLbrt s.cfg.val.defLedBrt) = u2
  have e2 : u2.complete = u1.complete.setLbrt (setAllNib 4 s.cfg.val.defLedBrt) := by rw [← h2]; rfl
  generalize h3 : (z.frameOps .ledbrt).foldl State.runOp u2 = u3
  have e3 : u3.complete = u2.complete.afterSend (u2.complete.frameOf .ledbrt) := by
    rw [← h3, frameOps_complete _ _ _ (by simp [State.frameOf]) (by simp [State.frameOf])]
  generalize h4 : (z.frameOps .digit).foldl State.runOp u3 = u4
  have d3 : u3.disp.dig = z.disp.dig := by
    have h : u3.complete.disp = u2.complete.disp := by rw [e3, afterSend_disp]
    rw [State.complete_disp, e2, e1] at h
    rw [h, State.setLbrt_disp, afterSend_disp]
  have e4 : u4.complete = u3.complete.afterSend (u3.complete.frameOf .digit) := by
    rw [← h4, frameOps_complete _ _ _ (by simp [State.frameOf]) (by simp [State.frameOf, d3])]
  generalize h5 : (z.frameOps .dispon).foldl State.runOp u4 = u5
  have e5 : u5.complete = u4.complete.afterSend (u4.complete.frameOf .dispon) := by
    rw [← h5, frameOps_complete _ _ _ (by simp [State.frameOf]) (by simp [State.frameOf])]
  have e6 : (u5.runOp .finish).complete = u5.complete := rfl
  have k3 : u2.complete.frameOf .ledbrt = (z.setLbrt (setAllNib 4 s.cfg.val.defLedBrt)).frameOf .ledbrt := by
    rw [e2, e1]
    simp only [State.frameOf, State.setLbrt_cfg, State.setLbrt_disp, afterSend_cfg, afterSend_disp]
  have k4 : u3.complete.frameOf .digit = z.frameOf .digit := by
    rw [e3, e2, e1]
    simp only [State.frameOf, State.setLbrt_cfg, State.setLbrt_disp, afterSend_cfg, afterSend_disp]
  have k5 : u4.complete.frameOf .dispon = z.frameOf .dispon := by
    rw [e4, e3, e2, e1]
    simp only [State.frameOf, State.setLbrt_cfg, State.setLbrt_disp, afterSend_cfg, afterSend_disp]
  rw [e6, e5, k5, e4, k4, e3, k3, e2, e1]

end Sys2Proof.Machine
end

