-- ==== Sys2Proof/Laws/Command.lean ====
section
/-! SUPPORT. What a command can come to, whatever HOST does meanwhile: it ends as it would undisturbed, or RST abandons it after some of its moves. -/

namespace Sys2Proof.Machine

/-- All HOST's acts can change while a command runs, RST's assertion apart: the error registers, its own inbox and
reads, the level of a released RST. `p` is the phase. -/
def State.hostEdit (s : State) (e : ErrCode) (w : Word) (i : List HostAct) (r : List HostRead) (b : Bool)
    (p : List MicroOp) : State :=
  { s with
    err := e
    errinfo := w
    seq := { s.seq with phase := p }
    env := { s.env with inbox := i, reads := r, rst := b } }

theorem hostEdit_self (s : State) :
    s.hostEdit s.err s.errinfo s.env.inbox s.env.reads s.env.rst s.seq.phase = s := rfl

theorem hostEdit_hostEdit (s : State) (e e' : ErrCode) (w w' : Word) (i i' : List HostAct) (r r' : List HostRead)
    (b b' : Bool) (p p' : List MicroOp) :
    (s.hostEdit e w i r b p).hostEdit e' w' i' r' b' p' = s.hostEdit e' w' i' r' b' p' := rfl

theorem setPhase_hostEdit (s : State) (e : ErrCode) (w : Word) (i : List HostAct) (r : List HostRead) (b : Bool)
    (p p' : List MicroOp) :
    (s.hostEdit e w i r b p).setSeq { (s.hostEdit e w i r b p).seq with phase := p' } = s.hostEdit e w i r b p' := rfl

/-- No move reads what HOST's acts change. -/
theorem runOp_hostEdit (s : State) (e : ErrCode) (w : Word) (i : List HostAct) (r : List HostRead) (b : Bool)
    (p : List MicroOp) (op : MicroOp) :
    (s.hostEdit e w i r b p).runOp op = (s.runOp op).hostEdit e w i r b p := by
  cases op <;> rfl

theorem foldl_hostEdit (ops : List MicroOp) (s : State) (e : ErrCode) (w : Word) (i : List HostAct) (r : List HostRead)
    (b : Bool) (p : List MicroOp) :
    ops.foldl State.runOp (s.hostEdit e w i r b p) = (ops.foldl State.runOp s).hostEdit e w i r b p := by
  induction ops generalizing s with
  | nil => rfl
  | cons op rest ih => rw [List.foldl_cons, runOp_hostEdit, ih, List.foldl_cons]

/-- The state RST leaves when it goes high: reset values, and the outside world with one more cut in the wire log. -/
def State.abandoned (s : State) (i : List HostAct) (r : List HostRead) : State :=
  State.resetIn s.cfg
    { s.env with inbox := i, reads := r, rst := true, cuts := s.env.wire.length :: s.env.cuts }

/-- A point while a command runs edits only what is HOST's, or RST abandons the command. RST asserted is an act of
the inbox. -/
theorem hostPoint_edit (s : State) (hb : s.busy = true) :
    (∃ e w i r b, s.hostPoint = s.hostEdit e w i r b s.seq.phase ∧ i <:+ s.env.inbox ∧
      (s.env.rst = false → b = false) ∧ (s.err ≠ .none → e = s.err ∧ w = s.errinfo) ∧ (e = .none → w = s.errinfo) ∧
      (∃ R, r = R ++ s.env.reads ∧ ∀ v, .status v ∈ R → v = s.status)) ∨
    (.setRst true ∈ s.env.inbox ∧ ∃ i, s.hostPoint = s.abandoned i s.env.reads ∧ i <:+ s.env.inbox) := by
  rcases hostPoint_busy_cases s hb with h | ⟨a, rest, hi, h⟩
  · exact .inl ⟨_, _, _, _, _, h.trans (hostEdit_self s).symm, List.suffix_refl _, id, fun _ => ⟨rfl, rfl⟩, fun _ => rfl, [], rfl, by simp⟩
  · have hsuf : rest <:+ s.env.inbox := hi ▸ List.suffix_cons a rest
    rcases h with h | ⟨w, -, h⟩ | ⟨-, h⟩ | ⟨-, h⟩ | ⟨-, h⟩ | ⟨ha, h⟩
    · exact .inl ⟨s.err, s.errinfo, rest, s.env.reads, s.env.rst, h, hsuf, id, fun _ => ⟨rfl, rfl⟩, fun _ => rfl, [], rfl, by simp⟩
    · by_cases he : s.err = .none
      · have h' := h
        rw [State.raiseError, State.setInbox_err, if_pos he] at h'
        exact .inl ⟨.overlap, w, rest, s.env.reads, s.env.rst, h', hsuf, id, fun hn => absurd he hn, nofun, [], rfl, by simp⟩
      · have h' := h
        rw [State.raiseError, State.setInbox_err, if_neg he] at h'
        exact .inl ⟨s.err, s.errinfo, rest, s.env.reads, s.env.rst, h', hsuf, id, fun _ => ⟨rfl, rfl⟩, fun _ => rfl, [], rfl, by simp⟩
    · exact .inl ⟨s.err, s.errinfo, rest, .status s.status :: s.env.reads, s.env.rst, h, hsuf, id, fun _ => ⟨rfl, rfl⟩,
        fun _ => rfl, [.status s.status], rfl, by simp⟩
    · exact .inl ⟨s.err, s.errinfo, rest, .errinfo s.errinfo :: s.env.reads, s.env.rst, h, hsuf, id, fun _ => ⟨rfl, rfl⟩,
        fun _ => rfl, [.errinfo s.errinfo], rfl, by simp⟩
    · exact .inl ⟨s.err, s.errinfo, rest, s.env.reads, false, h, hsuf, fun _ => rfl, fun _ => ⟨rfl, rfl⟩, fun _ => rfl, [], rfl, by simp⟩
    · exact .inr ⟨by simp [hi, ha], rest, h, hsuf⟩

/-- What a command can come to: its moves all done, with HOST's edits; or abandoned by RST after the first `n` of them. -/
theorem runOps_cases (ops : List MicroOp) (s : State) (hb : s.busy = true) :
    (∃ e w i r b, s.runOps ops = ((ops.foldl State.runOp s).hostEdit e w i r b []).complete ∧
      (s.env.rst = false → b = false) ∧ (s.err ≠ .none → e = s.err ∧ w = s.errinfo) ∧ (e = .none → w = s.errinfo)) ∨
    (.setRst true ∈ s.env.inbox ∧
      ∃ n i r, n < ops.length ∧ s.runOps ops = ((ops.take n).foldl State.runOp s).abandoned i r) := by
  induction ops generalizing s with
  | nil =>
    exact .inl ⟨s.err, s.errinfo, s.env.inbox, s.env.reads, s.env.rst, rfl, id, fun _ => ⟨rfl, rfl⟩, fun _ => rfl⟩
  | cons op rest ih =>
    have hb1 : (s.setSeq { s.seq with phase := op :: rest }).busy = true := hb
    simp only [State.runOps]
    rcases hostPoint_edit _ hb1 with ⟨e, w, i, r, b, h, hsuf, hrst, herr, hnone, -⟩ | ⟨hmem, i, h, -⟩
    · have h2 : (s.setSeq { s.seq with phase := op :: rest }).hostPoint = s.hostEdit e w i r b (op :: rest) := h
      have hb2 : ((s.hostEdit e w i r b (op :: rest)).runOp op).busy = true := by rw [runOp_busy]; exact hb
      rw [h2, if_pos (show (s.hostEdit e w i r b (op :: rest)).busy = true from hb)]
      rcases ih _ hb2 with ⟨e', w', i', r', b', h3, hr3, he3, hn3⟩ | ⟨hm3, n, i', r', hn, h3⟩
      · have he' : ((s.hostEdit e w i r b (op :: rest)).runOp op).err = e := by rw [runOp_err]; rfl
        have hw' : ((s.hostEdit e w i r b (op :: rest)).runOp op).errinfo = w := by rw [runOp_errinfo]; rfl
        rw [he', hw'] at he3
        rw [hw'] at hn3
        refine .inl ⟨e', w', i', r', b', ?_, ?_, ?_, ?_⟩
        · rw [h3, List.foldl_cons]
          rw [runOp_hostEdit, foldl_hostEdit, hostEdit_hostEdit]
        · intro h0
          exact hr3 (by rw [runOp_rst]; exact hrst h0)
        · intro h0
          obtain ⟨he, hw⟩ := herr h0
          obtain ⟨h4, h5⟩ := he3 (he ▸ h0)
          exact ⟨h4.trans he, h5.trans hw⟩
        · intro h0
          by_cases hn : e = .none
          · exact (hn3 h0).trans (hnone hn)
          · exact absurd ((he3 hn).1.symm.trans h0) hn
      · refine .inr ⟨?_, n + 1, i', r', by simpa using hn, ?_⟩
        · rw [runOp_inbox] at hm3
          exact hsuf.subset hm3
        · rw [h3, List.take_succ_cons, List.foldl_cons]
          rw [runOp_hostEdit, foldl_hostEdit]
          rfl
    · rw [h]
      exact .inr ⟨hmem, 0, i, s.env.reads, by simp, rfl⟩

end Sys2Proof.Machine
end

