-- ==== Sys2Proof/Laws/Encode.lean ====
section
/-! SUPPORT. The bits of an encoded command word: its three fields (R60) can be read back. -/

namespace Sys2Proof

/-- Bit `j` of an encoded word comes from D, LEN or OP (R60). -/
theorem getLsbD_encode (i : Instr) (j : Nat) :
    (encode i).getLsbD j =
      if j < 56 then (operandD i).getLsbD j
      else if j < 59 then (operandLen i).getLsbD (j - 56)
      else if j < 64 then (opcodeBits (opcodeOf i)).getLsbD (j - 59) else false := by
  unfold encode
  simp only [BitVec.getLsbD_or, BitVec.getLsbD_shiftLeft, BitVec.getLsbD_setWidth]
  generalize operandD i = d
  generalize operandLen i = l
  generalize opcodeBits (opcodeOf i) = o
  by_cases h1 : j < 56
  · simp [h1, show j < 59 by omega, show j < 64 by omega]
  · have hd : d.getLsbD j = false := BitVec.getLsbD_of_ge _ _ (by omega)
    by_cases h2 : j < 59
    · simp [h1, h2, show j < 64 by omega, hd]
      intro _
      omega
    · have hl : l.getLsbD (j - 56) = false := BitVec.getLsbD_of_ge _ _ (by omega)
      by_cases h3 : j < 64
      · simp [h1, h2, h3, hd, hl]
        intro _
        omega
      · simp [h1, h2, h3, hd, hl]

theorem opField_encode (i : Instr) : opField (encode i) = opcodeBits (opcodeOf i) := by
  apply BitVec.eq_of_getLsbD_eq
  intro j hj
  simp only [opField, BitVec.getLsbD_extractLsb', hj, decide_true, Bool.true_and, getLsbD_encode]
  rw [if_neg (by omega), if_neg (by omega), if_pos (by omega), Nat.add_sub_cancel_left]

theorem lenField_encode (i : Instr) : lenField (encode i) = operandLen i := by
  apply BitVec.eq_of_getLsbD_eq
  intro j hj
  simp only [lenField, BitVec.getLsbD_extractLsb', hj, decide_true, Bool.true_and, getLsbD_encode]
  rw [if_neg (by omega), if_pos (by omega), Nat.add_sub_cancel_left]

theorem dField_encode (i : Instr) : dField (encode i) = operandD i := by
  apply BitVec.eq_of_getLsbD_eq
  intro j hj
  simp only [dField, BitVec.getLsbD_extractLsb', hj, decide_true, Bool.true_and, getLsbD_encode, Nat.zero_add, if_true]

/-- The opcode map read back (R69). -/
theorem opcodeOf?_opcodeBits (op : Opcode) : opcodeOf? (opcodeBits op) = some op := by
  cases op <;> decide

/-- Only an opcode's own bits read as it. -/
theorem opcodeBits_of_opcodeOf? (b : BitVec 5) (op : Opcode) (h : opcodeOf? b = some op) : opcodeBits op = b := by
  revert b op
  decide

end Sys2Proof
end

