-- ==== Sys2Proof/Laws/Exec.lean ====
section
/-! SUPPORT. Every command in one shape: its registers updated, then its moves. What holds of all commands follows from the shape. -/

namespace Sys2Proof.Machine

/-- The state a command's moves begin with: its phase (a) done (R113). -/
def prepared (i : Instr) (s : State) : State :=
  match i with
  | .segLookup _ => s
  | .writeFrame _ => s
  | .readByte _ => s
  | .init => s.zeroBuffer
  | .initWiring wv => (s.setWiring wv).zeroBuffer
  | .displayOn => s
  | .displayOff => s
  | .setBrightness tgt lvl =>
    match targetSel s.cfg.val.nDigits tgt with
    | .all => s.setBrt (setAllNib 3 lvl)
    | .one k => s.setBrt (setNib s.disp.brt k lvl)
    | .outOfRange => s
  | .clear => s.setDig (List.replicate s.cfg.val.nDigits 0)
  | .setRaw tgt mask =>
    match targetSel s.cfg.val.nDigits tgt with
    | .all => s.setDig (List.replicate s.cfg.val.nDigits mask)
    | .one k => s.setDig (s.disp.dig.set (k - 1) mask)
    | .outOfRange => s
  | .setRawAll m1 m2 m3 m4 m5 m6 => s.setDig ([m1, m2, m3, m4, m5, m6].take s.cfg.val.nDigits)
  | .showDec val => s.setDig ((List.range s.cfg.val.nDigits).map (s.decByte val))
  | .showHex val => s.setDig (s.hexDigits val)
  | .setDp tgt on =>
    match targetSel s.cfg.val.nDigits tgt with
    | .all => s.setDig (s.disp.dig.map (dpByte s.wiring on))
    | .one k => s.setDig (s.disp.dig.modify (k - 1) (dpByte s.wiring on))
    | .outOfRange => s
  | .setLedBrightness tgt lvl =>
    match targetSel nLeds tgt with
    | .all => s.setLbrt (setAllNib 4 lvl)
    | .one k => s.setLbrt (setNib s.disp.lbrt k lvl)
    | .outOfRange => s
  | .setLedState tgt on =>
    match targetSel nLeds tgt with
    | .all => s.setLstate (if on then 0xFF else 0x00)
    | .one k => s.setLstate (ledByte on k s.disp.lstate)
    | .outOfRange => s

/-- The moves of a command with a target: its frame, or nothing where the target is out of range. -/
def targetMoves (n : Nat) (tgt : Target) (t : State) (k : FrameKind) : List MicroOp :=
  match targetSel n tgt with
  | .all => t.frameOps k ++ [.finish]
  | .one _ => t.frameOps k ++ [.finish]
  | .outOfRange => [.finish]

/-- A command's moves (R86, R98, R102, R116 to R128). -/
def moves (i : Instr) (s : State) : List MicroOp :=
  match i with
  | .segLookup nib => [.lookup nib]
  | .writeFrame bytes => s.frameOps (.raw bytes) ++ [.finish]
  | .readByte addr => .compose (.readCmd addr) :: recvOps ++ [.latchAcc]
  | .init => (prepared .init s).initOps
  | .initWiring wv => (prepared (.initWiring wv) s).initOps
  | .displayOn => s.frameOps .dispon ++ [.finish]
  | .displayOff => s.frameOps .dispoff ++ [.finish]
  | .setBrightness tgt lvl => targetMoves s.cfg.val.nDigits tgt (prepared (.setBrightness tgt lvl) s) .conf1
  | .clear => (prepared .clear s).frameOps .digit ++ [.finish]
  | .setRaw tgt mask => targetMoves s.cfg.val.nDigits tgt (prepared (.setRaw tgt mask) s) .digit
  | .setRawAll m1 m2 m3 m4 m5 m6 => (prepared (.setRawAll m1 m2 m3 m4 m5 m6) s).frameOps .digit ++ [.finish]
  | .showDec val => (prepared (.showDec val) s).frameOps .digit ++ [.finish]
  | .showHex val => (prepared (.showHex val) s).frameOps .digit ++ [.finish]
  | .setDp tgt on => targetMoves s.cfg.val.nDigits tgt (prepared (.setDp tgt on) s) .digit
  | .setLedBrightness tgt lvl => targetMoves nLeds tgt (prepared (.setLedBrightness tgt lvl) s) .ledbrt
  | .setLedState tgt on => targetMoves nLeds tgt (prepared (.setLedState tgt on) s) .ledstate

/-- Every well-formed command is its moves run from its prepared state. -/
theorem exec_eq_command (i : Instr) (s : State) (h : WellFormed i) :
    exec i s = .next ((prepared i s).command (moves i s)) := by
  cases i with
  | writeFrame bytes =>
    have hb : FrameLength bytes := by simpa [WellFormed, wellFormed] using h
    simp [exec, execWriteFrame, hb, prepared, moves, State.transact]
  | setBrightness tgt lvl =>
    simp only [exec, execSetBrightness, prepared, moves, targetMoves]
    cases targetSel s.cfg.val.nDigits tgt <;> rfl
  | setRaw tgt mask =>
    simp only [exec, execSetRaw, prepared, moves, targetMoves]
    cases targetSel s.cfg.val.nDigits tgt <;> rfl
  | setDp tgt on =>
    simp only [exec, execSetDp, prepared, moves, targetMoves]
    cases targetSel s.cfg.val.nDigits tgt <;> rfl
  | setLedBrightness tgt lvl =>
    simp only [exec, execSetLedBrightness, prepared, moves, targetMoves]
    cases targetSel nLeds tgt <;> rfl
  | setLedState tgt on =>
    simp only [exec, execSetLedState, prepared, moves, targetMoves]
    cases targetSel nLeds tgt <;> rfl
  | _ => rfl

/-- A term that is no command is refused (R97). -/
theorem exec_of_not_wellFormed (i : Instr) (s : State) (h : ¬ WellFormed i) : exec i s = .refused .illFormedFrame := by
  cases i with
  | writeFrame bytes =>
    have hb : ¬ FrameLength bytes := by simpa [WellFormed, wellFormed] using h
    simp [exec, execWriteFrame, hb]
  | _ => exact absurd rfl h

/-- A command that answers a next state is well formed. -/
theorem wellFormed_of_exec {i : Instr} {s t : State} (h : exec i s = .next t) : WellFormed i := by
  by_contra hw
  rw [exec_of_not_wellFormed i s hw] at h
  cases h

/-- Preparing a command writes display registers and, for INIT_WIRING, the wiring; nothing else. -/
theorem prepared_frame (i : Instr) (s : State) :
    (prepared i s).cfg = s.cfg ∧ (prepared i s).rdata = s.rdata ∧ (prepared i s).busy = s.busy ∧
      (prepared i s).err = s.err ∧ (prepared i s).errinfo = s.errinfo ∧ (prepared i s).pins = s.pins ∧
      (prepared i s).seq = s.seq ∧ (prepared i s).env = s.env := by
  cases i with
  | setBrightness tgt lvl =>
    simp only [prepared]
    cases targetSel s.cfg.val.nDigits tgt <;> exact ⟨rfl, rfl, rfl, rfl, rfl, rfl, rfl, rfl⟩
  | setRaw tgt mask =>
    simp only [prepared]
    cases targetSel s.cfg.val.nDigits tgt <;> exact ⟨rfl, rfl, rfl, rfl, rfl, rfl, rfl, rfl⟩
  | setDp tgt on =>
    simp only [prepared]
    cases targetSel s.cfg.val.nDigits tgt <;> exact ⟨rfl, rfl, rfl, rfl, rfl, rfl, rfl, rfl⟩
  | setLedBrightness tgt lvl =>
    simp only [prepared]
    cases targetSel nLeds tgt <;> exact ⟨rfl, rfl, rfl, rfl, rfl, rfl, rfl, rfl⟩
  | setLedState tgt on =>
    simp only [prepared]
    cases targetSel nLeds tgt <;> exact ⟨rfl, rfl, rfl, rfl, rfl, rfl, rfl, rfl⟩
  | _ => exact ⟨rfl, rfl, rfl, rfl, rfl, rfl, rfl, rfl⟩

/-- Every next state of a command: all its moves done, with HOST's edits, or RST has abandoned it after `n` of them. -/
theorem exec_cases (i : Instr) (s t : State) (h : exec i s = .next t) :
    (∃ e w ib r b, t = ((((moves i s).foldl State.runOp ((prepared i s).setBusy true)).hostEdit e w ib r b []).complete) ∧
      (s.env.rst = false → b = false) ∧ (s.err ≠ .none → e = s.err ∧ w = s.errinfo) ∧ (e = .none → w = s.errinfo)) ∨
    (.setRst true ∈ s.env.inbox ∧ ∃ n ib r, n < (moves i s).length ∧
      t = ((((moves i s).take n).foldl State.runOp ((prepared i s).setBusy true)).abandoned ib r)) := by
  rw [exec_eq_command i s (wellFormed_of_exec h)] at h
  obtain ⟨-, -, -, he, hw, -, -, henv⟩ := prepared_frame i s
  have ht : ((prepared i s).setBusy true).runOps (moves i s) = t := by
    injection h
  have hc := runOps_cases (moves i s) ((prepared i s).setBusy true) rfl
  rw [ht] at hc
  simpa [he, hw, henv] using hc

end Sys2Proof.Machine
end

