-- ==== Sys2Proof/Laws/PerInstr.lean ====
section
/-! SUPPORT. The family EncodedOpcode: the decoder finds an encoded command's own opcode (R60, R69), one lemma per constructor. -/

namespace Sys2Proof.Laws.EncodedOpcode

/-- The opcode field of the command's word is read as the command's opcode. -/
def Statement (i : Instr) : Prop := opcodeOf? (opField (encode i)) = some (opcodeOf i)

theorem of_encode (i : Instr) : Statement i := by
  rw [Statement, opField_encode, opcodeOf?_opcodeBits]

theorem segLookup (nib : Nibble) : Statement (.segLookup nib) := of_encode _
theorem writeFrame (bytes : List Byte) : Statement (.writeFrame bytes) := of_encode _
theorem readByte (addr : Nibble) : Statement (.readByte addr) := of_encode _
theorem init : Statement .init := of_encode _
theorem initWiring (wv : Wiring) : Statement (.initWiring wv) := of_encode _
theorem displayOn : Statement .displayOn := of_encode _
theorem displayOff : Statement .displayOff := of_encode _
theorem setBrightness (tgt : Target) (lvl : Level) : Statement (.setBrightness tgt lvl) := of_encode _
theorem clear : Statement .clear := of_encode _
theorem setRaw (tgt : Target) (mask : Byte) : Statement (.setRaw tgt mask) := of_encode _
theorem setRawAll (m1 : Byte) (m2 : Byte) (m3 : Byte) (m4 : Byte) (m5 : Byte) (m6 : Byte) : Statement (.setRawAll m1 m2 m3 m4 m5 m6) := of_encode _
theorem showDec (val : BitVec 32) : Statement (.showDec val) := of_encode _
theorem showHex (val : BitVec 32) : Statement (.showHex val) := of_encode _
theorem setDp (tgt : Target) (on : Bool) : Statement (.setDp tgt on) := of_encode _
theorem setLedBrightness (tgt : Target) (lvl : Level) : Statement (.setLedBrightness tgt lvl) := of_encode _
theorem setLedState (tgt : Target) (on : Bool) : Statement (.setLedState tgt on) := of_encode _

end Sys2Proof.Laws.EncodedOpcode
end

