-- ==== Sys2Proof/Tests/Slice0.lean ====
section
/-! SUPPORT. Tests against the spec's worked examples and vectors (95_test_vectors.md, cited by their numbers), and a witness for the hypotheses of each statement. -/

namespace Sys2Proof.Tests

open Sys2Proof Sys2Proof.Machine

set_option maxRecDepth 20000

/-- The outcome is a next state that meets `p`. -/
def answers (o : Host.Outcome State Fault Refusal) (p : State → Bool) : Bool :=
  match o with
  | .next t => p t
  | .fault _ => false
  | .refused _ => false

theorem exists_of_answers {o : Host.Outcome State Fault Refusal} {p : State → Bool} (h : answers o p = true) :
    ∃ t, o = .next t ∧ p t = true := by
  cases o with
  | next t => exact ⟨t, rfl, h⟩
  | fault f => cases h
  | refused r => cases h

/-- HOST has these acts ahead. -/
def hostDoes (s : State) (acts : List HostAct) : State := s.setInbox acts

/-- HOST writes one command word; the step answers a next state that meets `p`. -/
def after (s : State) (w : Word) (p : State → Bool) : Bool := answers (step (hostDoes s [.writeCmd w])) p

/-- The reset state of EX with `n` digits, `n` from 1 to 6. -/
def resetN (n : Nat) (h : (exParams n).Admitted) : State := State.resetOf ⟨exParams n, h⟩

/-- The wire events of write transactions in order: the vectors' `W[…]; W[…]`. -/
def wireOfFrames (fs : List (List Byte)) : List WireEvent := fs.flatMap sendEvents

/-- The DOUT levels of a trace in order: the vectors' "DIO". -/
def douts (l : List WireEvent) : List Bool :=
  l.filterMap fun e => match e with
    | .dout b => some b
    | .sel _ => none
    | .clk _ => none
    | .ddirIn => none
    | .ddirOut _ => none
    | .hold _ => none
    | .sample _ _ => none

/-- The decoder's answer to a word as an Option; `rejected` names the other case. -/
def decoded (w : Word) : Option Instr := (decode w).toOption

/-- The decoder rejects a word with this error. -/
def rejected (w : Word) (e : DecodeError) : Bool :=
  match decode w with
  | .ok _ => false
  | .error e' => e = e'

/-- A state of reset with digits of its own. -/
def withDigits (l : List Byte) : State := State.reset.setDig l

/-! ## WellFormed and the configuration's constraints -/

/-- R62, R97: a frame of no bytes is no command. -/
theorem test_wellFormed_refuses_an_empty_frame : ¬ WellFormed (.writeFrame []) := by decide

/-- R62, R97: a frame of eight bytes is no command. -/
theorem test_wellFormed_refuses_eight_bytes : ¬ WellFormed (.writeFrame [0, 0, 0, 0, 0, 0, 0, 0]) := by decide

/-- R6: `N_DIGITS` is 1..6. -/
theorem test_config_refuses_digit_counts_0_and_7 :
    (Config.ofParams? (exParams 0)).isNone = true ∧ (Config.ofParams? (exParams 7)).isNone = true := by decide

/-- R15: each constraint broken alone is refused. -/
theorem test_config_refuses_each_broken_constraint :
    ([{ exParams 6 with rwRead := 0 }, { exParams 6 with pageConf1 := 0b00 }, { exParams 6 with pageLedbrt := 0b11 },
      { exParams 6 with modeFixed := 0 }, { exParams 6 with dispOffCmd := 0x0D }, { exParams 6 with nSetup := 1 },
      { exParams 6 with nHalf := 0 }, { exParams 6 with fSys := 0 }, { exParams 6 with fSys := 1000001 }] : List Params).all
      (fun p => (Config.ofParams? p).isNone) = true := by decide

/-! ## Decoding: words written out from R60 to R70 -/

/-- OP 0x01, NIB 0xA in D[3:0] (R65, R69). -/
theorem test_decode_segLookup :
    decoded (0b00001_000#8 ++ 0b0000_1010#56) = some (.segLookup 0xA) := by decide

/-- OP 0x02, LEN 3, FB[0] in D[7:0] (R68; E6's word). -/
theorem test_decode_writeFrame :
    decoded (0b00010_011#8 ++ 0#32 ++ 0x35#8 ++ 0x80#8 ++ 0x01#8) = some (.writeFrame [0x01, 0x80, 0x35]) ∧
      decoded 0x1300000000358001 = some (.writeFrame [0x01, 0x80, 0x35]) := by decide

/-- OP 0x03, ADDR 15 (R65). -/
theorem test_decode_readByte : decoded (0b00011_000#8 ++ 0b0000_1111#56) = some (.readByte 15) := by decide

/-- OP 0x04 and every other bit 0 (R69). -/
theorem test_decode_init : decoded (0b00100_000#8 ++ 0#56) = some .init := by decide

/-- OP 0x05, the wiring 7,6,5,4,3,2,1,0 with a in D[2:0] and dp in D[23:21] (R67; vector 2.2). -/
theorem test_decode_initWiring :
    decoded (0b00101_000#8 ++ 0#32 ++ 0b000_001_010_011_100_101_110_111#24) = some (.initWiring ⟨7, 6, 5, 4, 3, 2, 1, 0⟩) ∧
      decoded 0x2800000000053977 = some (.initWiring ⟨7, 6, 5, 4, 3, 2, 1, 0⟩) := by decide

/-- OP 0x06 and 0x07 (R69). -/
theorem test_decode_display_on_off :
    decoded (0b00110_000#8 ++ 0#56) = some .displayOn ∧ decoded (0b00111_000#8 ++ 0#56) = some .displayOff := by decide

/-- OP 0x08, LVL 5 in D[6:4], TGT 1 in D[3:0] (R64). -/
theorem test_decode_setBrightness : decoded (0b01000_000#8 ++ 0b0_101_0001#56) = some (.setBrightness 1 5) := by decide

/-- OP 0x09 (R69). -/
theorem test_decode_clear : decoded (0b01001_000#8 ++ 0#56) = some .clear := by decide

/-- OP 0x0A, MASK in D[15:8], TGT in D[3:0] (R64). -/
theorem test_decode_setRaw : decoded (0b01010_000#8 ++ 0b01110110_0000_0011#56) = some (.setRaw 3 0x76) := by decide

/-- OP 0x0B, ARR[i] in byte i of D (R66; V18's word). -/
theorem test_decode_setRawAll :
    decoded 0x58006D664F5B063F = some (.setRawAll 0x3F 0x06 0x5B 0x4F 0x66 0x6D) := by decide

/-- OP 0x0C, VAL in D[31:0] (R65). -/
theorem test_decode_showDec : decoded (0b01100_000#8 ++ 0#24 ++ 123456#32) = some (.showDec 123456) := by decide

/-- OP 0x0D, VAL in D[31:0] (R65). -/
theorem test_decode_showHex : decoded (0b01101_000#8 ++ 0#24 ++ 0xFFFFFFFF#32) = some (.showHex 0xFFFFFFFF) := by decide

/-- OP 0x0E, ON in D[7], TGT in D[3:0] (R64). -/
theorem test_decode_setDp :
    decoded (0b01110_000#8 ++ 0b1_000_0011#56) = some (.setDp 3 true) ∧
      decoded (0b01110_000#8 ++ 0b0_000_0011#56) = some (.setDp 3 false) := by decide

/-- OP 0x0F, LVL in D[6:4], TGT in D[3:0] (R64). -/
theorem test_decode_setLedBrightness : decoded (0b01111_000#8 ++ 0b0_111_1000#56) = some (.setLedBrightness 8 7) := by decide

/-- OP 0x10, ON in D[7], TGT in D[3:0] (R64). -/
theorem test_decode_setLedState : decoded (0b10000_000#8 ++ 0b1_000_1001#56) = some (.setLedState 9 true) := by decide

/-- AC1 to AC3: unassigned opcodes. -/
theorem test_decode_illegal_op :
    ([0x0000000000000000, 0x8800000000000000, 0xF800000000000123] : List Word).all (rejected · .illegalOp) = true := by decide

/-- AC4 to AC16 but AC8: a reserved-zero bit set, or WRITE_FRAME with `LEN = 0`. -/
theorem test_decode_illegal_operand :
    ([0x0800000000000010, 0x090000000000000A, 0x1000000000000000, 0x11000000000001FF, 0x2000000000000001,
      0x2800000001000000, 0x4000000000000080, 0x5000000000000010, 0x5801000000000000, 0x6000000100000000,
      0x7000000000000010, 0x8000000000000040] : List Word).all (rejected · .illegalOperand) = true := by decide

/-- AC8: WRITE_FRAME with `LEN = 7` uses all of D. -/
theorem test_decode_full_frame :
    decoded 0x17FFFFFFFFFFFFFF = some (.writeFrame [0xFF, 0xFF, 0xFF, 0xFF, 0xFF, 0xFF, 0xFF]) := by decide

/-! ## One step of each command -/

/-- E1, last row but five: `SEG_LOOKUP 0xA` reads 0x77; no wire event. -/
theorem test_segLookup : after .reset 0x080000000000000A (fun t => t.rdata == 0x77 && t.trace == []) = true := by decide

/-- Vector 2.2, second wiring: `ROM[0] = 0xFC`. -/
theorem test_segLookup_reversed_wiring :
    after (State.reset.setWiring ⟨7, 6, 5, 4, 3, 2, 1, 0⟩) 0x0800000000000000 (fun t => t.rdata == 0xFC) = true := by decide

/-- T1's events, written out. -/
def eventsT1 : List WireEvent :=
  List.flatten [
    [.clk true, .sel false, .hold .setup],
    [.dout true, .clk false, .hold .half, .clk true, .hold .half],
    [.dout false, .clk false, .hold .half, .clk true, .hold .half],
    [.dout false, .clk false, .hold .half, .clk true, .hold .half],
    [.dout false, .clk false, .hold .half, .clk true, .hold .half],
    [.dout false, .clk false, .hold .half, .clk true, .hold .half],
    [.dout false, .clk false, .hold .half, .clk true, .hold .half],
    [.dout false, .clk false, .hold .half, .clk true, .hold .half],
    [.dout false, .clk false, .hold .half, .clk true, .hold .half],
    [.hold .setup, .sel true]]

/-- T1: the 45 events of `WRITE_FRAME 0x01`. -/
theorem test_writeFrame_events :
    after .reset 0x1100000000000001 (fun t => t.trace == eventsT1 && t.trace.length == 45) = true := by decide

/-- E6: DIO levels LSB first, byte by byte; 125 events; `DIO_O` ends 0. -/
theorem test_writeFrame_bit_order :
    after .reset 0x1300000000358001 (fun t => douts t.trace ==
        [true, false, false, false, false, false, false, false, false, false, false, false, false, false, false, true,
         true, false, true, false, true, true, false, false] && t.trace.length == 125 && !t.pins.dioO) = true := by decide

/-- E7: the slave's pattern 0xA5, LSB first; the command byte 0xA3 on DIO; 86 events; `STATUS = 0xA500`. -/
theorem test_readByte_round_trip :
    answers (step (hostDoes (State.reset.setEnv { State.reset.env with
        dioIn := [true, false, true, false, false, true, false, true] }) [.writeCmd 0x1800000000000003])) (fun t =>
      t.rdata == 0xA5 && douts t.trace == [true, true, false, false, false, true, false, true] && t.trace.length == 86 &&
        t.status == 0xA500) = true := by decide

/-- T3's events, written out: every draw 1. -/
def eventsT3 : List WireEvent :=
  List.flatten [
    [.sel false, .hold .setup],
    [.dout true, .clk false, .hold .half, .clk true, .hold .half],
    [.dout true, .clk false, .hold .half, .clk true, .hold .half],
    [.dout true, .clk false, .hold .half, .clk true, .hold .half],
    [.dout true, .clk false, .hold .half, .clk true, .hold .half],
    [.dout false, .clk false, .hold .half, .clk true, .hold .half],
    [.dout true, .clk false, .hold .half, .clk true, .hold .half],
    [.dout false, .clk false, .hold .half, .clk true, .hold .half],
    [.dout true, .clk false, .hold .half, .clk true, .hold .half],
    [.ddirIn],
    [.clk false, .hold .half, .clk true, .sample 0 true, .hold .half],
    [.clk false, .hold .half, .clk true, .sample 1 true, .hold .half],
    [.clk false, .hold .half, .clk true, .sample 2 true, .hold .half],
    [.clk false, .hold .half, .clk true, .sample 3 true, .hold .half],
    [.clk false, .hold .half, .clk true, .sample 4 true, .hold .half],
    [.clk false, .hold .half, .clk true, .sample 5 true, .hold .half],
    [.clk false, .hold .half, .clk true, .sample 6 true, .hold .half],
    [.clk false, .hold .half, .clk true, .sample 7 true, .hold .half],
    [.ddirOut true, .hold .setup, .sel true]]

/-- T3: the 86 events of `READ_BYTE 15` with every draw 1; `RDATA = 0xFF`. -/
theorem test_readByte_events :
    answers (step (hostDoes (State.reset.setEnv { State.reset.env with dioIn := List.replicate 8 true })
      [.writeCmd 0x180000000000000F])) (fun t => t.rdata == 0xFF && t.trace == eventsT3 && t.trace.length == 86) =
      true := by decide

/-- V1: INIT's registers and its four frames. -/
theorem test_init :
    after .reset 0x2000000000000000 (fun t => t.disp == ⟨[0, 0, 0, 0, 0, 0], #v[0x22, 0x22, 0x22], #v[0x22, 0x22, 0x22, 0x22], 0⟩ &&
      t.trace == wireOfFrames [[0x20, 0x05, 0x22, 0x22, 0x22], [0x40, 0x22, 0x22, 0x22, 0x22], [0, 0, 0, 0, 0, 0, 0], [0x0D]]) =
      true := by decide

/-- V2: INIT with one digit. -/
theorem test_init_one_digit :
    after (resetN 1 (by decide)) 0x2000000000000000 (fun t =>
      t.trace == wireOfFrames [[0x20, 0x00, 0x22, 0x22, 0x22], [0x40, 0x22, 0x22, 0x22, 0x22], [0, 0], [0x0D]]) = true := by decide

/-- Vector 2.2: INIT_WIRING sends what INIT sends, and the table of the third wiring is 7E 0C B6 9E CC DA FA 0E FE DE
EE F8 72 BC F2 E2. -/
theorem test_initWiring :
    after .reset 0x28000000001F58D1 (fun t =>
      (List.range 16).map (fun n => t.rom (BitVec.ofNat 4 n)) ==
        [0x7E, 0x0C, 0xB6, 0x9E, 0xCC, 0xDA, 0xFA, 0x0E, 0xFE, 0xDE, 0xEE, 0xF8, 0x72, 0xBC, 0xF2, 0xE2] &&
      dpMask t.wiring == 0x01 &&
      t.trace == wireOfFrames [[0x20, 0x05, 0x22, 0x22, 0x22], [0x40, 0x22, 0x22, 0x22, 0x22], [0, 0, 0, 0, 0, 0, 0], [0x0D]]) =
      true := by decide

/-- Vector 2.2, last row: with every segment on bit 0 every glyph is 0x01. -/
theorem test_initWiring_one_bit :
    after .reset 0x2800000000000000 (fun t => (List.range 16).all (fun n => t.rom (BitVec.ofNat 4 n) == 0x01)) = true := by decide

/-- V4. -/
theorem test_displayOn : after .reset 0x3000000000000000 (fun t => t.trace == wireOfFrames [[0x0D]]) = true := by decide

/-- V5. -/
theorem test_displayOff : after .reset 0x3800000000000000 (fun t => t.trace == wireOfFrames [[0x0E]]) = true := by decide

/-- E4, step 2: digit 2's level goes to the high nibble, digit 1's stays. -/
theorem test_setBrightness_packs_pairs :
    after (State.reset.setBrt #v[0x05, 0, 0]) 0x4000000000000032 (fun t => t.disp.brt == #v[0x35, 0, 0] &&
      t.trace == wireOfFrames [[0x20, 0x05, 0x35, 0, 0]]) = true := by decide

/-- V12: target 4 of 3 digits is ignored. -/
theorem test_setBrightness_out_of_range :
    after (resetN 3 (by decide)) 0x4000000000000014 (fun t => t.disp.brt == #v[0, 0, 0] && t.trace == [] && t.err == .none) =
      true := by decide

/-- V13. -/
theorem test_clear :
    after (withDigits [0x86, 0x06, 0x5B, 0x4F, 0x66, 0x6D]) 0x4800000000000000 (fun t => t.disp.dig == [0, 0, 0, 0, 0, 0] &&
      t.trace == wireOfFrames [[0, 0, 0, 0, 0, 0, 0]]) = true := by decide

/-- V15. -/
theorem test_setRaw :
    after .reset 0x500000000000FF06 (fun t => t.disp.dig == [0, 0, 0, 0, 0, 0xFF] &&
      t.trace == wireOfFrames [[0, 0, 0, 0, 0, 0, 0xFF]]) = true := by decide

/-- E5: targets 7 and 15 of 6 digits leave the buffer and the wire as they were. -/
theorem test_setRaw_out_of_range :
    after (withDigits [0, 0x3F, 0, 0, 0, 0]) 0x500000000000FF07 (fun t => t.disp.dig == [0, 0x3F, 0, 0, 0, 0] && t.trace == []) = true ∧
    after (withDigits [0, 0x3F, 0, 0, 0, 0]) 0x500000000000FF0F (fun t => t.disp.dig == [0, 0x3F, 0, 0, 0, 0] && t.trace == []) =
      true := by decide

/-- V18. -/
theorem test_setRawAll :
    after .reset 0x58006D664F5B063F (fun t => t.disp.dig == [0x3F, 0x06, 0x5B, 0x4F, 0x66, 0x6D] &&
      t.trace == wireOfFrames [[0, 0x3F, 0x06, 0x5B, 0x4F, 0x66, 0x6D]]) = true := by decide

/-- V19: the first two bytes only. -/
theorem test_setRawAll_two_digits :
    after (resetN 2 (by decide)) 0x58006D664F5B063F (fun t => t.disp.dig == [0x3F, 0x06] &&
      t.trace == wireOfFrames [[0, 0x3F, 0x06]]) = true := by decide

/-- V28: leading positions blank, every DP kept. -/
theorem test_showDec_keeps_the_points :
    after (withDigits [0x80, 0x80, 0x80, 0x80, 0x80, 0x80]) 0x6000000000000131 (fun t =>
      t.disp.dig == [0xED, 0xBF, 0xCF, 0x80, 0x80, 0x80] &&
      t.trace == wireOfFrames [[0, 0xED, 0xBF, 0xCF, 0x80, 0x80, 0x80]]) = true := by decide

/-- V27: the largest value shows its low six digits. -/
theorem test_showDec_overflow :
    after .reset 0x60000000FFFFFFFF (fun t => t.disp.dig == [0x6D, 0x6F, 0x5B, 0x07, 0x7D, 0x6F]) = true := by decide

/-- V31: digits 3 to 6 untouched. -/
theorem test_showHex :
    after (withDigits [0x7D, 0x6D, 0x66, 0x4F, 0x5B, 0x06]) 0x68000000000000AB (fun t =>
      t.disp.dig == [0x7C, 0x77, 0x66, 0x4F, 0x5B, 0x06] &&
      t.trace == wireOfFrames [[0, 0x7C, 0x77, 0x66, 0x4F, 0x5B, 0x06]]) = true := by decide

/-- V33: one digit shows only the low nibble. -/
theorem test_showHex_one_digit :
    after (resetN 1 (by decide)) 0x68000000000000FE (fun t => t.disp.dig == [0x79] && t.trace == wireOfFrames [[0, 0x79]]) =
      true := by decide

/-- V36: `SET_DP ALL, 0`. -/
theorem test_setDp_all_off :
    after (withDigits [0xFF, 0xFF, 0xFF, 0xFF, 0xFF, 0xFF]) 0x7000000000000000 (fun t =>
      t.disp.dig == [0x7F, 0x7F, 0x7F, 0x7F, 0x7F, 0x7F] &&
      t.trace == wireOfFrames [[0, 0x7F, 0x7F, 0x7F, 0x7F, 0x7F, 0x7F]]) = true := by decide

/-- Vector 2.2, the shared bit: with dp on bit 0, `SET_DP 1, 0` clears segment a as well. -/
theorem test_setDp_shared_bit :
    after ((withDigits [0x7F, 0, 0, 0, 0, 0]).setWiring ⟨0, 1, 2, 3, 4, 5, 6, 0⟩) 0x7000000000000001 (fun t =>
      t.disp.dig == [0x7E, 0, 0, 0, 0, 0]) = true := by decide

/-- V42: LED 2's level goes to the high nibble. -/
theorem test_setLedBrightness :
    after (State.reset.setLbrt #v[0x03, 0, 0, 0]) 0x7800000000000052 (fun t => t.disp.lbrt == #v[0x53, 0, 0, 0] &&
      t.trace == wireOfFrames [[0x40, 0x53, 0, 0, 0]]) = true := by decide

/-- V44 and V45: LED 9 is ignored; LED 8 exists whatever the digit count. -/
theorem test_setLedBrightness_range :
    after .reset 0x7800000000000079 (fun t => t.disp.lbrt == #v[0, 0, 0, 0] && t.trace == []) = true ∧
    after (resetN 1 (by decide)) 0x7800000000000018 (fun t => t.disp.lbrt == #v[0, 0, 0, 0x10]) = true := by decide

/-- V47. -/
theorem test_setLedState :
    after (State.reset.setLstate 0xFF) 0x8000000000000008 (fun t => t.disp.lstate == 0x7F &&
      t.trace == wireOfFrames [[0x60, 0x7F]]) = true := by decide

/-- V50: LED 9 is ignored. -/
theorem test_setLedState_out_of_range :
    after .reset 0x8000000000000089 (fun t => t.disp.lstate == 0 && t.trace == [] && t.err == .none) = true := by decide

/-! ## Acceptance, errors, reset -/

/-- AC2: ILLEGAL_OP is recorded with its word; nothing on the wire. -/
theorem test_illegal_op :
    after .reset 0x8800000000000000 (fun t => t.err == .illegalOp && t.errinfo == 0x8800000000000000 && t.trace == []) =
      true := by decide

/-- The sticky first error, step 2: an ILLEGAL_OPERAND after an ILLEGAL_OP is not recorded. -/
theorem test_first_error_stays :
    after (State.reset.setErr .illegalOp 0x8800000000000000) 0x0800000000000010 (fun t =>
      t.err == .illegalOp && t.errinfo == 0x8800000000000000) = true := by decide

/-- The sticky first error, step 3: a command is accepted all the same; `STATUS = 0x7702`. -/
theorem test_accepted_after_an_error :
    after (State.reset.setErr .illegalOp 0x8800000000000000) 0x080000000000000A (fun t => t.status == 0x7702) = true := by decide

/-- Overlap: an illegal word written while CLEAR runs is OVERLAP, CLEAR sends its 285 events, `STATUS = 0x0006`. -/
theorem test_overlap :
    answers (step (hostDoes .reset [.writeCmd 0x4800000000000000, .quiet, .writeCmd 0x8800000000000000])) (fun t =>
      t.errinfo == 0x8800000000000000 && t.status == 0x0006 && t.trace == wireOfFrames [[0, 0, 0, 0, 0, 0, 0]]) = true := by decide

/-- The outcome is a fault with this reason. -/
def faults (o : Host.Outcome State Fault Refusal) (f : Fault) : Bool :=
  match o with
  | .next _ => false
  | .fault g => g = f
  | .refused _ => false

/-- R160: an overlap faults the strict step, also behind an earlier ILLEGAL_OP, which keeps its code (R152). -/
theorem test_strictStep_faults_every_overlap :
    faults (strictStep (hostDoes .reset [.writeCmd 0x4800000000000000, .writeCmd 0x4800000000000000])) .overlap = true ∧
    faults (strictStep (hostDoes (State.reset.setErr .illegalOp 0x8800000000000000)
      [.writeCmd 0x4800000000000000, .writeCmd 0x4800000000000000])) .illegalWord = true := by decide

/-- `STATUS = 0x0001` while a command runs. -/
theorem test_status_while_busy :
    answers (step (hostDoes .reset [.writeCmd 0x4800000000000000, .readStatus])) (fun t => t.env.reads == [.status 0x0001]) =
      true := by decide

/-- R-3: RST in the middle of CLEAR, at the point of the move that would drive bit 0 of the frame's fourth byte: 24 bits
are out, the pins are idle, the registers at their reset values, and the CHIP sees no further event. (The moves before it:
compose, 4 of the head, and 24 bits of 7 moves each.) -/
theorem test_reset_during_clear :
    answers (step (hostDoes (withDigits [1, 2, 3, 4, 5, 6])
        (.writeCmd 0x4800000000000000 :: List.replicate 173 .quiet ++ [.setRst true]))) (fun t =>
      douts t.trace == List.replicate 24 false && t.pins == pinsReset && t.disp == displayReset 6 && !t.busy &&
        t.env.cuts == [123]) = true := by decide

/-- R-4: a CMD write with RST high is ignored and is no error. -/
theorem test_write_during_reset :
    answers (step (hostDoes (State.reset.setEnv { State.reset.env with rst := true }) [.writeCmd 0x8800000000000000]))
      (fun t => t.err == .none && t.trace == []) = true := by decide

/-- R-1: STATUS after reset is 0. -/
theorem test_status_after_reset : State.reset.status = 0x0000 := by decide

/-- `withFetchWord` places a word that the very next step runs. -/
theorem test_withFetchWord :
    answers (step (State.reset.withFetchWord 64 0x0800000000000008)) (fun t => t.status == 0x7F00) = true := by decide

/-! ## Witnesses: the hypotheses of each statement are met by a concrete state and operands -/

/-- The word of CLEAR (R69), of an unassigned opcode (R153) and of INIT with `D[0]` set (R154). -/
def clearWord : Word := 0x4800000000000000
def badOpWord : Word := 0x8800000000000000
def badOperandWord : Word := 0x2000000000000001

/-- Reset, BUSY, with these acts ahead: the state at a point of a running command. -/
def running (acts : List HostAct) : State := hostDoes (State.reset.setBusy true) acts

/-- Reset held (RST high), with these acts ahead. -/
def heldInReset (acts : List HostAct) : State := hostDoes (State.reset.setEnv { State.reset.env with rst := true }) acts

/-- Reset with ILLEGAL_OP recorded, with these acts ahead. -/
def afterBadOp (acts : List HostAct) : State := hostDoes (State.reset.setErr .illegalOp badOpWord) acts

/-- A machine in the shape the acceptance statements ask for: out of reset, idle. -/
def ready (s : State) : Bool := !s.env.rst && !s.busy

/-- Frames of one and of seven bytes are well formed. -/
theorem witness_EncodeThenDecodeIsIdentity :
    WellFormed (.writeFrame [0xFF]) ∧ WellFormed (.writeFrame [1, 2, 3, 4, 5, 6, 7]) := by decide

theorem witness_DecodedWordIsItsOwnEncoding :
    decoded 0x1100000000000035 = some (.writeFrame [0x35]) ∧ decoded 0x8000000000000000 = some (.setLedState 0 false) := by decide

/-- Opcodes 0x00, 0x11 and 0x1F. -/
theorem witness_UnassignedOpcodeRaisesIllegalOp :
    ready (hostDoes .reset [.writeCmd badOpWord]) = true ∧ (0#64).extractLsb' 59 5 = 0 ∧
      0x11 ≤ (badOpWord.extractLsb' 59 5).toNat ∧ 0x11 ≤ ((0xF800000000000000#64).extractLsb' 59 5).toNat := by decide

theorem witness_ReservedBitRaisesIllegalOperand :
    ready (hostDoes .reset [.writeCmd badOperandWord]) = true ∧ rejected badOperandWord .illegalOperand = true ∧
      rejected 0x1000000000000000 .illegalOperand = true := by decide

theorem witness_StatusWordLayout :
    ready (hostDoes .reset [.readStatus]) = true ∧ (hostDoes .reset [.readErrinfo]).env.inbox = [.readErrinfo] ∧
      ready (hostDoes .reset [.readErrinfo]) = true := by decide

theorem witness_StepRunsTheDecodedCommand :
    ready (hostDoes .reset [.writeCmd clearWord]) = true ∧ decoded clearWord = some .clear ∧
      decodeTableWord 64 0x4800000000000000 = some .clear := by decide

/-- Both errors of a word, with ERR clear and with ERR set. -/
theorem witness_IllegalWordChangesOnlyTheErrorRegisters :
    ready (hostDoes .reset [.writeCmd badOperandWord]) = true ∧ State.reset.err = .none ∧
      ready (afterBadOp [.writeCmd badOperandWord]) = true ∧ (afterBadOp [.writeCmd badOperandWord]).err ≠ .none ∧
      rejected badOperandWord .illegalOperand = true ∧ rejected badOpWord .illegalOp = true := by decide

theorem witness_FirstErrorStaysUntilReset :
    answers (step (afterBadOp [.writeCmd clearWord])) (fun t => !t.env.rst) = true ∧
      (afterBadOp [.writeCmd clearWord]).env.rst = false ∧ (afterBadOp [.writeCmd clearWord]).err ≠ .none := by decide

theorem witness_OverlapIsRecorded :
    WellFormed .clear ∧ (hostDoes .reset [.writeCmd badOpWord, .readStatus]).err = .none ∧ noReset [.readStatus] = true := by decide

theorem witness_OverlapLeavesTheCommandUndisturbed :
    (running [.writeCmd clearWord]).busy = true ∧ (running [.writeCmd clearWord]).env.inbox = [.writeCmd clearWord] ∧
      State.reset.env.rst = false ∧ noReset [.writeCmd clearWord, .readStatus, .setRst false, .poll] = true := by decide

theorem witness_PollingHostWaitsForCompletion :
    WellFormed .clear ∧ (hostDoes .reset [.poll, .writeCmd clearWord]).env.inbox = [.poll, .writeCmd clearWord] := by decide

theorem witness_ResetDuringACommandAbandonsIt :
    answers (exec .clear (hostDoes .reset [.quiet, .setRst true])) (fun t => t.env.rst) = true ∧
      State.reset.env.rst = false ∧ (hostDoes .reset [.setRst true]).env.inbox = [.setRst true] := by decide

theorem witness_ResetHoldsEveryElement :
    (heldInReset [.writeCmd clearWord]).env.rst = true ∧ (heldInReset [.writeCmd clearWord]).env.inbox = [.writeCmd clearWord] := by
  decide

/-- EX's font is that of R81. -/
theorem witness_ResetValues : Config.ex.val.font = fontR81 := rfl

theorem witness_IdleMachineStaysAsItIs : ready State.reset = true ∧ State.reset.env.inbox = [] := by decide

/-- A step that ends with each error code. -/
theorem witness_OverlapIsAFaultOfTheStrictStep :
    answers (step (hostDoes .reset [.writeCmd clearWord, .writeCmd clearWord])) (fun t => t.err == .overlap) = true ∧
      answers (step (hostDoes .reset [.writeCmd badOpWord])) (fun t => t.err == .illegalOp) = true ∧
      answers (step (hostDoes .reset [.writeCmd badOperandWord])) (fun t => t.err == .illegalOperand) = true ∧
      answers (step (hostDoes .reset [.writeCmd clearWord])) (fun t => decide (¬ t.Faulted)) = true := by decide

/-- Both clauses, at a command's first point and at its third: an overlap after no error, and one after an ILLEGAL_OP. -/
theorem witness_EveryOverlapFaultsTheStrictStep :
    decoded clearWord = some .clear ∧
    ([[.writeCmd badOpWord], [.quiet, .readStatus, .writeCmd badOpWord]] : List (List HostAct)).all (fun taken =>
      [State.reset, afterBadOp []].all fun s =>
        ready s && answers (step (hostDoes s (.writeCmd clearWord :: taken ++ [.poll]))) (fun t =>
          !t.env.rst && t.env.inbox == [.poll])) = true ∧
      State.reset.err = .none ∧ (afterBadOp []).err ≠ .none := by decide

/-- HOST reads STATUS during the command and writes nothing before its end. -/
theorem witness_NoErrorAtTheEndMeansNoOverlap :
    State.reset.env.rst = false ∧
      answers (exec .clear (hostDoes .reset [.readStatus, .poll, .writeCmd clearWord])) (fun t =>
        t.err == .none && !t.env.rst && t.env.inbox == [.poll, .writeCmd clearWord]) = true := by decide

theorem witness_quiet : State.reset.Quiet := rfl

/-- Both sides of the table build: numeral 1 lights b and c, on bits 1 and 2; bits 0 and 7 stay clear. -/
theorem witness_RomBitIsSetByALitSegment :
    (romEntry fontR81 wiringW0 1).getLsbD 1 = true ∧ (romEntry fontR81 wiringW0 1).getLsbD 0 = false ∧
      (romEntry fontR81 wiringW0 1).getLsbD 7 = false := by decide

theorem witness_RomChangesOnlyWithTheWiring :
    answers (exec .clear State.reset) (fun t => !t.env.rst) = true ∧ State.reset.env.rst = false := by decide

/-- Frames of one and of seven bytes, and the ill-formed lengths around them. -/
theorem witness_frame_lengths :
    FrameLength [0x00] ∧ FrameLength [1, 2, 3, 4, 5, 6, 7] ∧ ([] : List Byte).length = 0 ∧
      7 < ([1, 2, 3, 4, 5, 6, 7, 8] : List Byte).length := by decide

/-- The first and last sample of a read: given levels 1 and 0 come as they are. -/
theorem witness_ReadByteAssemblesItsSamples :
    State.reset.Quiet ∧
      (State.reset.setEnv { State.reset.env with dioIn := [true, false, false, false, false, false, false, false] }).coming 0 = true ∧
      (State.reset.setEnv { State.reset.env with dioIn := [true, false, false, false, false, false, false, false] }).coming 7 = false := by
  decide

theorem witness_EveryCommandKeepsBusDiscipline :
    State.reset.pins.dioOe = true ∧ State.reset.pins.clk = true ∧
      answers (exec .clear (hostDoes .reset [.quiet, .quiet, .setRst true])) (fun t => t.env.rst) = true := by decide

theorem witness_StatusReadWhileBusyShowsTheOldResult :
    answers (exec (.segLookup 8) (hostDoes (State.reset.setRdata 0x12) [.readStatus])) (fun t =>
      t.env.reads == [.status 0x1201] && t.rdata == 0x7F) = true := by decide

theorem witness_LeastDurations :
    State.reset.cfg = Config.ex ∧ State.reset.Quiet ∧ answers (exec .init State.reset) (fun _ => true) = true := by decide

/-- Digit nibbles at both ends (1 and 6 of BRT, 1 and 8 of LBRT), in the same and in another byte. -/
theorem witness_PackedNibbleReadsBackAfterWrite :
    getNib (setNib #v[0x77#8, 0x77, 0x77] 6 4) 6 = 4 ∧ getNib (setNib #v[0x77#8, 0x77, 0x77] 6 4) 5 = 7 ∧
      getNib (setNib #v[0x77#8, 0x77, 0x77, 0x77] 1 0) 1 = 0 ∧ getNib (setNib #v[0x77#8, 0x77, 0x77, 0x77] 1 0) 8 = 7 := by decide

/-- Two digits are enough. -/
theorem witness_BrightnessPairPacksTo0x35 :
    (resetN 2 (by decide)).Quiet ∧ 2 ≤ (resetN 2 (by decide)).cfg.val.nDigits := by decide

/-- A digit target at each end of both clauses: ALL, 1, N and N + 1, 15 for N = 6; N + 1 = 7 is past the end. -/
theorem witness_digit_targets :
    State.reset.Quiet ∧ State.reset.disp.dig.length = State.reset.cfg.val.nDigits ∧
      [(0 : Target), 1, 6].all (fun t => t.toNat ≤ State.reset.cfg.val.nDigits) = true ∧
      [(7 : Target), 15].all (fun t => State.reset.cfg.val.nDigits < t.toNat) = true ∧
      levelsClean State.reset.disp.brt = true := by decide

/-- An LED target at each end of both clauses. -/
theorem witness_led_targets :
    State.reset.Quiet ∧ [(0 : Target), 1, 8].all (fun t => t.toNat ≤ 8) = true ∧
      [(9 : Target), 15].all (fun t => 8 < t.toNat) = true ∧ levelsClean State.reset.disp.lbrt = true := by decide

/-- SHOW_DEC's positions: shown, and blank (`VAL = 10`, positions 1 and 2). -/
theorem witness_ShowDecWritesDecimalDigits :
    State.reset.Quiet ∧ ¬ (10#32).toNat < 10 ^ 1 ∧ (10#32).toNat < 10 ^ 2 ∧ 2 < State.reset.cfg.val.nDigits := by decide

/-- The least value too large for six digits. -/
theorem witness_ShowDecOverflowBlanksNothing :
    State.reset.Quiet ∧ 10 ^ State.reset.cfg.val.nDigits ≤ (1000000#32).toNat := by decide

theorem witness_ShowHexWritesTwoDigits :
    (resetN 1 (by decide)).Quiet ∧ (resetN 1 (by decide)).disp.dig.length = (resetN 1 (by decide)).cfg.val.nDigits ∧
      2 < State.reset.disp.dig.length := by decide

/-- Under W0 no numeral segment shares the DP's bit. -/
theorem witness_NumeralsKeepTheDecimalPoint :
    State.reset.disp.dig.length = State.reset.cfg.val.nDigits ∧
      [Segment.a, .b, .c, .d, .e, .f, .g].all (fun s => wireOf State.reset.wiring s ≠ State.reset.wiring.dp) = true := by decide

/-- The five commands with a target out of range, and a STATUS read at the one point of such a command. -/
theorem witness_OutOfRangeTargetsAreIgnored :
    State.reset.cfg.val.nDigits < (7 : Target).toNat ∧ 8 < (9 : Target).toNat ∧ State.reset.Quiet ∧
      (hostDoes .reset [.readStatus]).env.inbox = [.readStatus] := by decide

/-- A busy-free state with the invariant, and a step from it; and the invariant with RST high. -/
theorem witness_EveryStepKeepsTheInvariant :
    (hostDoes .reset [.writeCmd clearWord]).Inv ∧
      answers (step (hostDoes .reset [.writeCmd clearWord])) (fun _ => true) = true ∧ (heldInReset [.setRst false]).Inv := by decide

theorem witness_ConfigurationNeverChanges :
    answers (step (hostDoes .reset [.writeCmd clearWord])) (fun _ => true) = true := by decide

end Sys2Proof.Tests
end

