-- ==== Sys2Proof/Proofs/Scope.lean ====
section
/-! PROOFS. The statements of spec/00_scope.md: which parameters are a configuration (R15), and what a command does whose target is out of range (R11, R114). -/

namespace Sys2Proof

/-! Configurations (R6, R15). -/

/-- R15's refusal answers a configuration for the admitted parameters and for no others. -/
theorem isSome_ofParams?_iff (p : Params) : (Config.ofParams? p).isSome = true ↔ p.Admitted := by
  by_cases h : p.Admitted <;> simp [Config.ofParams?, h]

/-- Four pages are distinct exactly when each of the six pairs differs (R15). -/
theorem nodup_four_iff {α : Type} (a b c d : α) :
    [a, b, c, d].Nodup ↔ a ≠ b ∧ a ≠ c ∧ a ≠ d ∧ b ≠ c ∧ b ≠ d ∧ c ≠ d := by
  simp [and_assoc]

/-- Settles O19: R15 in the order of the statement is `Params.Admitted`, with the four pages compared pair by pair. -/
theorem configurationsAreTheAdmittedParameters : Obligations.ConfigurationsAreTheAdmittedParameters := by
  intro p
  rw [isSome_ofParams?_iff, Params.Admitted, nodup_four_iff]
  constructor
  · rintro ⟨digits, sys, ⟨setup, setupUs⟩, ⟨half, halfUs⟩, rwBits, pages, mode, disp⟩
    exact ⟨digits, rwBits, pages, mode, disp, sys, setup, half, setupUs, halfUs⟩
  · rintro ⟨digits, rwBits, pages, mode, disp, sys, setup, half, setupUs, halfUs⟩
    exact ⟨digits, sys, ⟨setup, setupUs⟩, ⟨half, halfUs⟩, rwBits, pages, mode, disp⟩

end Sys2Proof

namespace Sys2Proof.Machine

/-! Targets out of range (R11, R114). -/

/-- A target beyond the `n` items names nothing: it is neither ALL nor an item's number (R11). -/
theorem targetSel_of_lt {n : Nat} {t : Target} (h : n < t.toNat) : targetSel n t = .outOfRange := by
  rw [targetSel, if_neg (Nat.ne_zero_of_lt h), if_neg (Nat.not_le.mpr h)]

/-! Each of the five commands with a target is ignored where its target names nothing. -/

theorem exec_setBrightness_outOfRange {s : State} {tgt : Target} (h : s.cfg.val.nDigits < tgt.toNat) (lvl : Level) :
    exec (.setBrightness tgt lvl) s = .next s.ignored := by
  simp only [exec, execSetBrightness, targetSel_of_lt h]

theorem exec_setRaw_outOfRange {s : State} {tgt : Target} (h : s.cfg.val.nDigits < tgt.toNat) (mask : Byte) :
    exec (.setRaw tgt mask) s = .next s.ignored := by
  simp only [exec, execSetRaw, targetSel_of_lt h]

theorem exec_setDp_outOfRange {s : State} {tgt : Target} (h : s.cfg.val.nDigits < tgt.toNat) (on : Bool) :
    exec (.setDp tgt on) s = .next s.ignored := by
  simp only [exec, execSetDp, targetSel_of_lt h]

theorem exec_setLedBrightness_outOfRange {tgt : Target} (h : nLeds < tgt.toNat) (lvl : Level) (s : State) :
    exec (.setLedBrightness tgt lvl) s = .next s.ignored := by
  simp only [exec, execSetLedBrightness, targetSel_of_lt h]

theorem exec_setLedState_outOfRange {tgt : Target} (h : nLeds < tgt.toNat) (on : Bool) (s : State) :
    exec (.setLedState tgt on) s = .next s.ignored := by
  simp only [exec, execSetLedState, targetSel_of_lt h]

/-- The one point of an ignored command shows a STATUS read with BUSY 1; then the command is complete (R114). -/
theorem ignored_readStatus (s : State) (rest : List HostAct) (h : s.env.inbox = .readStatus :: rest) :
    s.ignored = ((s.setInbox rest).recordRead (.status (s.setBusy true).status)).complete := by
  have hp : ((s.setBusy true).setSeq { s.seq with phase := [.finish] }).hostPoint =
      (((s.setBusy true).setSeq { s.seq with phase := [.finish] }).setInbox rest).recordRead
        (.status (s.setBusy true).status) := by
    simp [State.hostPoint, h, State.hostAct, State.status]
  simp only [State.ignored, State.command, State.runOps, State.setBusy_seq, hp]
  rfl

/-- Settles O50: each of the five commands comes to `State.ignored`, whose two ends (HOST quiet, HOST reading STATUS) are
`ignored_quiet` and `ignored_readStatus`. -/
theorem outOfRangeTargetsAreIgnored : Obligations.OutOfRangeTargetsAreIgnored := by
  intro tgt s i hi
  have hexec : exec i s = .next s.ignored := by
    obtain ⟨h, ⟨lvl, rfl⟩ | ⟨mask, rfl⟩ | ⟨on, rfl⟩⟩ | ⟨h, ⟨lvl, rfl⟩ | ⟨on, rfl⟩⟩ := hi
    · exact exec_setBrightness_outOfRange h lvl
    · exact exec_setRaw_outOfRange h mask
    · exact exec_setDp_outOfRange h on
    · exact exec_setLedBrightness_outOfRange h lvl s
    · exact exec_setLedState_outOfRange h on s
  rw [hexec]
  constructor
  · intro hq
    rw [ignored_quiet s hq]
    rfl
  · intro hread
    rw [ignored_readStatus s [] hread]
    rfl

end Sys2Proof.Machine
end

/-! PROOFS. The statements of the family 10_state: what every step keeps, the reset values, and the commands that write
packed levels and LED bits. -/

namespace Sys2Proof.Machine

/-! ## Packed nibbles (R23, R24, R115)

A packed array is read byte by byte through `packedAt`; `setNib` replaces one nibble of one byte. -/

/-- A byte of a packed array with one nibble replaced: the low one where `q = 0`, else the high one (R115). -/
def nibbleByte (q : Nat) (old : Byte) (v : Level) : Byte :=
  if q = 0 then (old &&& 0xF0#8) ||| v.setWidth 8 else (old &&& 0x0F#8) ||| (v.setWidth 8 <<< 4)

theorem setNib_eq {m : Nat} (A : Vector Byte m) (t : Nat) (v : Level) :
    setNib A t v =
      A.setIfInBounds ((t - 1) / 2) (nibbleByte ((t - 1) % 2) (packedAt A ((t - 1) / 2)) v) := by
  unfold setNib nibbleByte
  split <;> rfl

theorem packedAt_setIfInBounds {m : Nat} (A : Vector Byte m) (k : Nat) (b : Byte) {j : Nat} (hj : j < m) :
    packedAt (A.setIfInBounds k b) j = if k = j then b else packedAt A j := by
  rw [packedAt, Vector.getElem?_setIfInBounds]
  split
  · next h => simp [h, hj]
  · rfl

theorem packedAt_setAllNib (m : Nat) (v : Level) (k : Nat) (hk : k < m) :
    packedAt (setAllNib m v) k = v.setWidth 8 ||| (v.setWidth 8 <<< 4) := by
  simp [packedAt, setAllNib, hk]

/-- The nibble written is the level. -/
theorem nibbleByte_same (old : Byte) (v : Level) (q : Nat) (hq : q < 2) :
    (nibbleByte q old v >>> (4 * q)).setWidth 3 = v := by
  obtain rfl | rfl : q = 0 ∨ q = 1 := by omega
  all_goals
    apply BitVec.eq_of_getLsbD_eq
    intro i hi
    obtain rfl | rfl | rfl : i = 0 ∨ i = 1 ∨ i = 2 := by omega
    all_goals simp [nibbleByte]

/-- The other nibble of the byte stays. -/
theorem nibbleByte_other (old : Byte) (v : Level) (q r : Nat) (hq : q < 2) (hr : r < 2) (h : r ≠ q) :
    (nibbleByte q old v >>> (4 * r)).setWidth 3 = (old >>> (4 * r)).setWidth 3 := by
  obtain ⟨rfl, rfl⟩ | ⟨rfl, rfl⟩ : q = 0 ∧ r = 1 ∨ q = 1 ∧ r = 0 := by omega
  all_goals
    apply BitVec.eq_of_getLsbD_eq
    intro i hi
    obtain rfl | rfl | rfl : i = 0 ∨ i = 1 ∨ i = 2 := by omega
    all_goals simp [nibbleByte]

/-- Writing item `t` of a packed array leaves it at the level, and every other item as it was (R115). -/
theorem getNib_setNib {m : Nat} (A : Vector Byte m) (t u : Nat) (v : Level) (ht : 1 ≤ t) (hu : 1 ≤ u)
    (hum : u ≤ 2 * m) :
    getNib (setNib A t v) u = if u = t then v else getNib A u := by
  rw [setNib_eq, getNib, getNib, packedAt_setIfInBounds _ _ _ (by omega)]
  by_cases hbyte : (t - 1) / 2 = (u - 1) / 2
  · rw [if_pos hbyte, hbyte]
    by_cases hut : u = t
    · rw [if_pos hut, hut, nibbleByte_same _ _ _ (by omega)]
    · rw [if_neg hut, nibbleByte_other _ _ _ _ (by omega) (by omega) (by omega)]
  · rw [if_neg hbyte, if_neg (by omega)]

/-- Writing all items leaves each at the level (R115). -/
theorem getNib_setAllNib (m u : Nat) (v : Level) (hu : 1 ≤ u) (hum : u ≤ 2 * m) : getNib (setAllNib m v) u = v := by
  rw [getNib, packedAt_setAllNib _ _ _ (by omega)]
  generalize hq : (u - 1) % 2 = q
  obtain rfl | rfl : q = 0 ∨ q = 1 := by omega
  all_goals
    revert v
    decide

/-! Bits 3 and 7 of a byte stay 0 (R23, R24). -/

theorem levelsClean_iff {m : Nat} (A : Vector Byte m) :
    levelsClean A = true ↔ ∀ k, k < m → packedAt A k &&& 0x88#8 = 0#8 := by
  simp +contextual [levelsClean, packedAt]

theorem nibbleByte_clean (q : Nat) {old : Byte} (h : old &&& 0x88#8 = 0#8) (v : Level) :
    nibbleByte q old v &&& 0x88#8 = 0#8 := by
  have low : v.setWidth 8 &&& 0x88#8 = 0#8 := by revert v; decide
  have high : (v.setWidth 8 <<< 4) &&& 0x88#8 = 0#8 := by revert v; decide
  have keep : ∀ mask : Byte, old &&& mask &&& 0x88#8 = 0#8 := fun mask => by
    rw [BitVec.and_assoc, BitVec.and_comm mask, ← BitVec.and_assoc, h, BitVec.zero_and]
  unfold nibbleByte
  split <;> simp [BitVec.and_or_distrib_right, keep, low, high]

theorem levelsClean_setNib {m : Nat} {A : Vector Byte m} (h : levelsClean A = true) (t : Nat) (v : Level) :
    levelsClean (setNib A t v) = true := by
  rw [levelsClean_iff] at h ⊢
  intro k hk
  rw [setNib_eq, packedAt_setIfInBounds _ _ _ hk]
  split
  · next hbyte => exact nibbleByte_clean _ (h _ (hbyte ▸ hk)) v
  · exact h k hk

theorem levelsClean_replicate (m : Nat) {b : Byte} (hb : b &&& 0x88#8 = 0#8) :
    levelsClean (Vector.replicate m b) = true := by
  rw [levelsClean_iff]
  intro k hk
  simpa [packedAt, hk] using hb

theorem levelsClean_setAllNib (m : Nat) (v : Level) : levelsClean (setAllNib m v) = true :=
  levelsClean_replicate m (by revert v; decide)

/-! ## What a step can come to

The points of HOST at an idle machine, then the inversion of `step`: each obligation about a step is one case analysis. -/

/-- A point at an idle BBSTC edits only what is HOST's, or RST goes high; the error registers stay (R72, R170, R171). -/
theorem hostPoint_idle_edit (s : State) (hb : s.busy = false) :
    (∃ i r b, s.hostPoint = s.hostEdit s.err s.errinfo i r b s.seq.phase ∧ (s.env.rst = false → b = false)) ∨
      ∃ i, s.hostPoint = s.abandoned i s.env.reads := by
  cases hi : s.env.inbox with
  | nil => exact .inl ⟨_, _, _, hostPoint_quiet s hi, id⟩
  | cons a rest =>
    cases a with
    | quiet => exact .inl ⟨rest, s.env.reads, s.env.rst, by simp only [State.hostPoint, hi]; rfl, id⟩
    | writeCmd w =>
      exact .inl ⟨rest, s.env.reads, s.env.rst, by simp [State.hostPoint, hi, State.hostAct, hb]; rfl, id⟩
    | readStatus =>
      exact .inl ⟨rest, .status s.status :: s.env.reads, s.env.rst, by simp only [State.hostPoint, hi]; rfl, id⟩
    | readErrinfo =>
      exact .inl ⟨rest, .errinfo s.errinfo :: s.env.reads, s.env.rst, by simp only [State.hostPoint, hi]; rfl, id⟩
    | poll =>
      exact .inl ⟨rest, .status s.status :: s.env.reads, s.env.rst, by simp [State.hostPoint, hi, hb]; rfl, id⟩
    | setRst level =>
      cases level with
      | false => exact .inl ⟨rest, s.env.reads, false, by simp only [State.hostPoint, hi]; rfl, fun _ => rfl⟩
      | true => exact .inr ⟨rest, by simp only [State.hostPoint, hi]; rfl⟩

/-- The ways a step answers a next state (R170, R71, R171). -/
inductive StepResult (s : State) : State → Prop
  /-- RST is high: reset values, then HOST's point. -/
  | held : s.env.rst = true → StepResult s s.toReset.hostPoint
  /-- A command in progress runs to its end. -/
  | resumed : s.env.rst = false → s.busy = true → StepResult s (s.runOps s.seq.phase)
  /-- An accepted word runs its command. -/
  | command {t : State} (i : Instr) (rest : List HostAct) : s.env.rst = false → s.busy = false →
      exec i (s.setInbox rest) = .next t → StepResult s t
  /-- A rejected word raises its error. -/
  | rejected (e : DecodeError) (w : Word) (rest : List HostAct) : s.env.rst = false → s.busy = false →
      StepResult s ((s.setInbox rest).raiseError (errOfDecode e) w)
  /-- Another act of HOST, or none. -/
  | act : s.env.rst = false → s.busy = false → StepResult s s.hostPoint

theorem stepResult_of_step {s t : State} (h : step s = .next t) : StepResult s t := by
  rw [step, State.stepOnce] at h
  split at h
  · next hr =>
    injection h with h
    exact h ▸ .held hr
  next hr =>
  rw [Bool.not_eq_true] at hr
  split at h
  · next hb =>
    injection h with h
    exact h ▸ .resumed hr hb
  next hb =>
  rw [Bool.not_eq_true] at hb
  split at h
  · next w rest _ =>
    rw [State.acceptWord] at h
    split at h
    · next i _ => exact .command i rest hr hb h
    · next e _ =>
      injection h with h
      exact h ▸ .rejected e w rest hr hb
  · injection h with h
    exact h ▸ .act hr hb

/-! ## The invariant (R20 to R33)

Between a command's moves the lines are busy; what the moves keep is the display registers' shape, and each whole
transaction brings the lines back to idle. -/

/-- The display registers' part of the invariant: one byte per digit, clean nibbles (R21, R23, R24). -/
def State.DisplayWf (s : State) : Prop :=
  s.disp.dig.length = s.cfg.val.nDigits ∧ levelsClean s.disp.brt = true ∧ levelsClean s.disp.lbrt = true

/-- The lines' part of the invariant: the idle levels of R32. -/
def Pins.Idle (p : Pins) : Prop := p.sel = true ∧ p.clk = true ∧ p.dioOe = true

theorem inv_iff (s : State) :
    s.Inv ↔ s.busy = false ∧ s.seq = seqIdle ∧ s.pins.Idle ∧ s.DisplayWf ∧ (s.err = .none → s.errinfo = 0) ∧
      (s.env.rst = true → s = s.toReset) := by
  simp only [State.Inv, Pins.Idle, State.DisplayWf, and_assoc]

theorem displayWf_resetIn (c : Config) (e : Env) : (State.resetIn c e).DisplayWf :=
  ⟨List.length_replicate, levelsClean_replicate 3 rfl, levelsClean_replicate 4 rfl⟩

/-- The reset values meet the invariant in every outside world (R33). -/
theorem inv_resetIn (c : Config) (e : Env) : (State.resetIn c e).Inv :=
  (inv_iff _).mpr ⟨rfl, rfl, ⟨rfl, rfl, rfl⟩, displayWf_resetIn c e, fun _ => rfl, fun _ => rfl⟩

/-- Settles O51: the reset state is `State.resetIn` in a quiet world. -/
theorem invariantHoldsAtReset : Obligations.InvariantHoldsAtReset := fun c => inv_resetIn c envQuiet

/-! Display registers: preparing a command and every move keep their shape. -/

theorem displayWf_setDig {s : State} (h : s.DisplayWf) {l : List Byte} (hl : l.length = s.cfg.val.nDigits) :
    (s.setDig l).DisplayWf := by
  obtain ⟨-, hbrt, hlbrt⟩ := h
  exact ⟨hl, hbrt, hlbrt⟩

theorem displayWf_setBrt {s : State} (h : s.DisplayWf) {v : Vector Byte 3} (hv : levelsClean v = true) :
    (s.setBrt v).DisplayWf := by
  obtain ⟨hdig, -, hlbrt⟩ := h
  exact ⟨hdig, hv, hlbrt⟩

theorem displayWf_setLbrt {s : State} (h : s.DisplayWf) {v : Vector Byte 4} (hv : levelsClean v = true) :
    (s.setLbrt v).DisplayWf := by
  obtain ⟨hdig, hbrt, -⟩ := h
  exact ⟨hdig, hbrt, hv⟩

theorem displayWf_zeroBuffer (s : State) : s.zeroBuffer.DisplayWf :=
  ⟨List.length_replicate, levelsClean_setAllNib 3 _, levelsClean_replicate 4 rfl⟩

theorem length_hexDigits (s : State) (val : BitVec 32) : (s.hexDigits val).length = s.disp.dig.length := by
  simp only [State.hexDigits]
  split <;> simp

/-- A command's register updates keep the display registers' shape (R113 (a)). -/
theorem displayWf_prepared (i : Instr) {s : State} (h : s.DisplayWf) : (prepared i s).DisplayWf := by
  have ⟨hdig, hbrt, hlbrt⟩ := h
  cases i with
  | segLookup | writeFrame | readByte | displayOn | displayOff => exact h
  | init | initWiring => exact displayWf_zeroBuffer _
  | setBrightness tgt lvl =>
    simp only [prepared]
    split
    · exact displayWf_setBrt h (levelsClean_setAllNib 3 lvl)
    · exact displayWf_setBrt h (levelsClean_setNib hbrt _ lvl)
    · exact h
  | clear => exact displayWf_setDig h List.length_replicate
  | setRaw tgt mask =>
    simp only [prepared]
    split
    · exact displayWf_setDig h List.length_replicate
    · exact displayWf_setDig h (by rw [List.length_set, hdig])
    · exact h
  | setRawAll m1 m2 m3 m4 m5 m6 =>
    have hn : s.cfg.val.nDigits ≤ 6 := s.cfg.property.1.2
    exact displayWf_setDig h (by rw [List.length_take]; exact Nat.min_eq_left hn)
  | showDec val => exact displayWf_setDig h (by rw [List.length_map, List.length_range])
  | showHex val => exact displayWf_setDig h (by rw [length_hexDigits, hdig])
  | setDp tgt on =>
    simp only [prepared]
    split
    · exact displayWf_setDig h (by rw [List.length_map, hdig])
    · exact displayWf_setDig h (by rw [List.length_modify, hdig])
    · exact h
  | setLedBrightness tgt lvl =>
    simp only [prepared]
    split
    · exact displayWf_setLbrt h (levelsClean_setAllNib 4 lvl)
    · exact displayWf_setLbrt h (levelsClean_setNib hlbrt _ lvl)
    · exact h
  | setLedState tgt on =>
    simp only [prepared]
    split <;> exact h

theorem displayWf_runOp {s : State} (h : s.DisplayWf) (op : MicroOp) : (s.runOp op).DisplayWf := by
  cases op with
  | fillLbrt v => exact displayWf_setLbrt h (levelsClean_setAllNib 4 v)
  | _ => exact h

theorem displayWf_foldl_runOp {s : State} (h : s.DisplayWf) (ops : List MicroOp) :
    (ops.foldl State.runOp s).DisplayWf :=
  List.foldlRecOn ops State.runOp h fun _ hu op _ => displayWf_runOp hu op

/-! Lines: a whole transaction ends with them idle (R97, R100), so every command does. -/

/-- A list of moves that ends with the lines idle where it begins with them so. -/
def KeepsLinesIdle (ops : List MicroOp) : Prop :=
  ∀ s : State, s.pins.Idle → (ops.foldl State.runOp s).pins.Idle

theorem KeepsLinesIdle.append {a b : List MicroOp} (ha : KeepsLinesIdle a) (hb : KeepsLinesIdle b) :
    KeepsLinesIdle (a ++ b) := by
  intro s h
  rw [List.foldl_append]
  exact hb _ (ha s h)

theorem KeepsLinesIdle.cons {op : MicroOp} {ops : List MicroOp} (h1 : ∀ s : State, (s.runOp op).pins = s.pins)
    (h : KeepsLinesIdle ops) : KeepsLinesIdle (op :: ops) := by
  intro s hs
  exact h _ ((h1 s).symm ▸ hs)

theorem keepsLinesIdle_nil : KeepsLinesIdle [] := fun _ h => h

theorem keepsLinesIdle_finish : KeepsLinesIdle [.finish] := keepsLinesIdle_nil.cons fun _ => rfl

theorem keepsLinesIdle_sendOps (L : Nat) : KeepsLinesIdle (sendOps L) := by
  intro s h
  obtain ⟨-, -, hoe⟩ := h
  have hsplit : sendOps L =
      ([.clkHigh, .selLow] ++ holdOps .setup) ++ ((List.range L).flatMap writeBitsOps ++ (holdOps .setup ++ [.selHigh])) := by
    simp [sendOps]
  rw [hsplit, List.foldl_append, List.foldl_append, foldl_sendHead, foldl_bytes _ rfl, foldl_sendTail]
  exact ⟨rfl, rfl, hoe⟩

theorem keepsLinesIdle_frameOps (s : State) (k : FrameKind) : KeepsLinesIdle (s.frameOps k) :=
  (keepsLinesIdle_sendOps _).cons fun _ => rfl

theorem keepsLinesIdle_readByte (addr : Nibble) :
    KeepsLinesIdle (.compose (.readCmd addr) :: recvOps ++ [.latchAcc]) := by
  intro s _
  rw [List.cons_append, List.foldl_cons, List.foldl_append, foldl_recvOps _ (hdrRead s.cfg addr) _ rfl rfl]
  exact ⟨rfl, rfl, rfl⟩

theorem keepsLinesIdle_initOps (s : State) : KeepsLinesIdle s.initOps :=
  ((((keepsLinesIdle_frameOps s _).append ((keepsLinesIdle_frameOps s _).cons fun _ => rfl)).append
    (keepsLinesIdle_frameOps s _)).append (keepsLinesIdle_frameOps s _)).append keepsLinesIdle_finish

theorem keepsLinesIdle_frame_finish (s : State) (k : FrameKind) : KeepsLinesIdle (s.frameOps k ++ [.finish]) :=
  (keepsLinesIdle_frameOps s k).append keepsLinesIdle_finish

theorem keepsLinesIdle_targetMoves (n : Nat) (tgt : Target) (s : State) (k : FrameKind) :
    KeepsLinesIdle (targetMoves n tgt s k) := by
  unfold targetMoves
  split
  · exact keepsLinesIdle_frame_finish s k
  · exact keepsLinesIdle_frame_finish s k
  · exact keepsLinesIdle_finish

theorem keepsLinesIdle_moves (i : Instr) (s : State) : KeepsLinesIdle (moves i s) := by
  cases i with
  | segLookup nib => exact keepsLinesIdle_nil.cons fun _ => rfl
  | readByte addr => exact keepsLinesIdle_readByte addr
  | init | initWiring => exact keepsLinesIdle_initOps _
  | setBrightness | setRaw | setDp | setLedBrightness | setLedState => exact keepsLinesIdle_targetMoves _ _ _ _
  | writeFrame | displayOn | displayOff | clear | setRawAll | showDec | showHex => exact keepsLinesIdle_frame_finish _ _

/-! Each way a step can end keeps the invariant. -/

/-- HOST's edits of an idle machine keep the invariant, where they leave RST low (R152). -/
theorem inv_hostEdit {s : State} (h : s.Inv) (i : List HostAct) (r : List HostRead) :
    (s.hostEdit s.err s.errinfo i r false s.seq.phase).Inv := by
  obtain ⟨hbusy, hseq, hpins, hdisp, herr, -⟩ := (inv_iff s).mp h
  exact (inv_iff _).mpr ⟨hbusy, hseq, hpins, hdisp, herr, nofun⟩

theorem inv_raiseError {s : State} (h : s.Inv) (hr : s.env.rst = false) {code : ErrCode} (hc : code ≠ .none) (w : Word) :
    (s.raiseError code w).Inv := by
  obtain ⟨-, heq⟩ | ⟨-, heq⟩ := raiseError_cases s code w
  · obtain ⟨hbusy, hseq, hpins, hdisp, -, -⟩ := (inv_iff s).mp h
    rw [heq]
    exact (inv_iff _).mpr ⟨hbusy, hseq, hpins, hdisp, fun hn => absurd hn hc, fun ht => absurd (hr.symm.trans ht) nofun⟩
  · rw [heq]
    exact h

theorem inv_hostPoint {s : State} (h : s.Inv) (hr : s.env.rst = false) : s.hostPoint.Inv := by
  obtain ⟨i, r, b, heq, hb⟩ | ⟨i, heq⟩ := hostPoint_idle_edit s h.1
  · rw [heq, hb hr]
    exact inv_hostEdit h i r
  · rw [heq]
    exact inv_resetIn _ _

/-- While RST is high a point of HOST leaves every element at its reset value (R170). -/
theorem inv_toReset_hostPoint (s : State) : s.toReset.hostPoint.Inv := by
  obtain ⟨i, r, b, heq, -⟩ | ⟨i, heq⟩ := hostPoint_idle_edit s.toReset rfl
  · rw [heq]
    exact inv_resetIn s.cfg { s.env with inbox := i, reads := r, rst := b }
  · rw [heq]
    exact inv_resetIn _ _

/-- A command keeps the invariant, whether it ends or RST abandons it. -/
theorem inv_exec {i : Instr} {s t : State} (h : s.Inv) (hr : s.env.rst = false) (hx : exec i s = .next t) : t.Inv := by
  obtain ⟨e, w, ib, r, b, rfl, hb, herr, hnone⟩ | ⟨-, n, ib, r, -, rfl⟩ := exec_cases i s t hx
  · obtain ⟨-, -, hpins, hdisp, hinfo, -⟩ := (inv_iff s).mp h
    obtain ⟨-, -, -, -, -, hprep, -, -⟩ := prepared_frame i s
    have hlines := keepsLinesIdle_moves i s ((prepared i s).setBusy true) (hprep.symm ▸ hpins)
    have hregs := displayWf_foldl_runOp (s := (prepared i s).setBusy true) (displayWf_prepared i hdisp) (moves i s)
    refine (inv_iff _).mpr ⟨rfl, rfl, hlines, hregs, fun hn => ?_, fun ht => ?_⟩
    · have hn' : e = .none := hn
      have hs : s.err = .none := by
        by_contra hs
        exact hs ((herr hs).1.symm.trans hn')
      exact (hnone hn').trans (hinfo hs)
    · exact absurd ((hb hr).symm.trans ht) nofun
  · exact inv_resetIn _ _

theorem inv_setInbox {s : State} (h : s.Inv) (hr : s.env.rst = false) (rest : List HostAct) : (s.setInbox rest).Inv := by
  have heq : s.setInbox rest = s.hostEdit s.err s.errinfo rest s.env.reads false s.seq.phase := by
    rw [← hr]
    rfl
  exact heq ▸ inv_hostEdit h rest s.env.reads

/-- Settles O52, by the ways a step can come to its next state. -/
theorem everyStepKeepsTheInvariant : Obligations.EveryStepKeepsTheInvariant := by
  intro s t h hstep
  cases stepResult_of_step hstep with
  | held hr => exact inv_toReset_hostPoint s
  | resumed hr hb => exact absurd (h.1.symm.trans hb) nofun
  | command i rest hr hb hx => exact inv_exec (inv_setInbox h hr rest) hr hx
  | rejected e w rest hr hb => exact inv_raiseError (inv_setInbox h hr rest) hr (by cases e <;> nofun) w
  | act hr hb => exact inv_hostPoint h hr

/-! ## What no step and no command changes -/

/-! The configuration (R35). -/

/-- What no move changes, no list of moves changes. -/
theorem foldl_runOp_eq {α : Type} {f : State → α} (h : ∀ s op, f (s.runOp op) = f s) (ops : List MicroOp) (s : State) :
    f (ops.foldl State.runOp s) = f s :=
  List.foldlRecOn (motive := fun u => f u = f s) ops State.runOp rfl fun u hu op _ => (h u op).trans hu

theorem hostPoint_cfg (s : State) : s.hostPoint.cfg = s.cfg := by
  cases hb : s.busy with
  | false =>
    obtain ⟨i, r, b, heq, -⟩ | ⟨i, heq⟩ := hostPoint_idle_edit s hb
    all_goals rw [heq]; rfl
  | true =>
    obtain ⟨e, w, i, r, b, heq, -⟩ | ⟨-, i, heq, -⟩ := hostPoint_edit s hb
    all_goals rw [heq]; rfl

theorem runOps_cfg (ops : List MicroOp) (s : State) (hb : s.busy = true) : (s.runOps ops).cfg = s.cfg := by
  obtain ⟨e, w, i, r, b, heq, -⟩ | ⟨-, n, i, r, -, heq⟩ := runOps_cases ops s hb
  · rw [heq]
    exact foldl_runOp_eq runOp_cfg ops s
  · rw [heq]
    exact foldl_runOp_eq runOp_cfg (ops.take n) s

theorem prepared_cfg (i : Instr) (s : State) : (prepared i s).cfg = s.cfg := (prepared_frame i s).1

theorem exec_cfg {i : Instr} {s t : State} (h : exec i s = .next t) : t.cfg = s.cfg := by
  rw [exec_eq_command i s (wellFormed_of_exec h)] at h
  injection h with h
  rw [← h, State.command, runOps_cfg _ _ rfl, State.setBusy_cfg, prepared_cfg]

theorem raiseError_cfg (s : State) (code : ErrCode) (w : Word) : (s.raiseError code w).cfg = s.cfg := by
  obtain ⟨-, heq⟩ | ⟨-, heq⟩ := raiseError_cases s code w
  · rw [heq, State.setErr_cfg]
  · rw [heq]

/-- Settles O53, by the ways a step can come to its next state. -/
theorem configurationNeverChanges : Obligations.ConfigurationNeverChanges := by
  intro s t hstep
  cases stepResult_of_step hstep with
  | held hr => exact hostPoint_cfg s.toReset
  | resumed hr hb => exact runOps_cfg _ s hb
  | command i rest hr hb hx => exact exec_cfg (s := s.setInbox rest) hx
  | rejected e w rest hr hb => exact raiseError_cfg (s.setInbox rest) _ w
  | act hr hb => exact hostPoint_cfg s

/-! The first error (R29, R152). -/

/-- `t` has the error registers of `s`, or RST is high in `t`. -/
def KeepsErrorOrReset (s t : State) : Prop := t.env.rst = true ∨ t.err = s.err ∧ t.errinfo = s.errinfo

theorem runOps_keepsError {ops : List MicroOp} {s : State} (hb : s.busy = true) (he : s.err ≠ .none) :
    KeepsErrorOrReset s (s.runOps ops) := by
  obtain ⟨e, w, i, r, b, heq, -, hkeep, -⟩ | ⟨-, n, i, r, -, heq⟩ := runOps_cases ops s hb
  · rw [heq]
    exact .inr (hkeep he)
  · rw [heq]
    exact .inl rfl

theorem exec_keepsError {i : Instr} {s t : State} (h : exec i s = .next t) (he : s.err ≠ .none) :
    KeepsErrorOrReset s t := by
  obtain ⟨e, w, ib, r, b, rfl, -, hkeep, -⟩ | ⟨-, n, ib, r, -, rfl⟩ := exec_cases i s t h
  · exact .inr (hkeep he)
  · exact .inl rfl

theorem hostPoint_idle_keepsError {s : State} (hb : s.busy = false) : KeepsErrorOrReset s s.hostPoint := by
  obtain ⟨i, r, b, heq, -⟩ | ⟨i, heq⟩ := hostPoint_idle_edit s hb
  · rw [heq]
    exact .inr ⟨rfl, rfl⟩
  · rw [heq]
    exact .inl rfl

theorem raiseError_of_err {s : State} (he : s.err ≠ .none) (code : ErrCode) (w : Word) : s.raiseError code w = s :=
  if_neg he

/-- Settles O11: with RST low at both ends, every way a step can end keeps an error that is there. -/
theorem firstErrorStaysUntilReset : Obligations.FirstErrorStaysUntilReset := by
  intro s t hstep hs ht he
  have hkeep : KeepsErrorOrReset s t := by
    cases stepResult_of_step hstep with
    | held hr => exact absurd (hs.symm.trans hr) nofun
    | resumed hr hb => exact runOps_keepsError hb he
    | command i rest hr hb hx => exact exec_keepsError (s := s.setInbox rest) hx he
    | rejected e w rest hr hb =>
      rw [raiseError_of_err (s := s.setInbox rest) he]
      exact .inr ⟨rfl, rfl⟩
    | act hr hb => exact hostPoint_idle_keepsError hb
  exact hkeep.resolve_left (by simp [ht])

/-! The wiring and the segment table (R26, R88). -/

/-- Preparing any command but INIT_WIRING leaves the wiring. -/
theorem prepared_wiring {i : Instr} (hi : ∀ wv, i ≠ .initWiring wv) (s : State) : (prepared i s).wiring = s.wiring := by
  cases i with
  | initWiring wv => exact absurd rfl (hi wv)
  | setBrightness | setRaw | setDp | setLedBrightness | setLedState =>
    simp only [prepared]
    split <;> rfl
  | _ => rfl

/-- The segment table is a function of the configuration and the wiring (R80). -/
theorem rom_congr {s t : State} (hcfg : t.cfg = s.cfg) (hw : t.wiring = s.wiring) (n : Nibble) : t.rom n = s.rom n := by
  rw [State.rom, State.rom, hcfg, hw]

/-- Settles O23: no move writes the wiring, and preparing the command only does for INIT_WIRING. -/
theorem romChangesOnlyWithTheWiring : Obligations.RomChangesOnlyWithTheWiring := by
  intro i s t hx _ ht hi
  have hw : t.wiring = s.wiring := by
    obtain ⟨e, w, ib, r, b, rfl, -⟩ | ⟨-, n, ib, r, -, rfl⟩ := exec_cases i s t hx
    · exact (foldl_runOp_eq runOp_wiring _ _).trans (prepared_wiring hi s)
    · exact absurd ht nofun
  exact ⟨hw, rom_congr (exec_cfg hx) hw⟩

/-! ## BUSY and RDATA while a command runs (R29, R104, R177) -/

theorem runOps_not_busy (ops : List MicroOp) (s : State) : (s.runOps ops).busy = false := by
  induction ops generalizing s with
  | nil => rfl
  | cons op rest ih =>
    simp only [State.runOps]
    split
    · exact ih _
    · next hb => exact Bool.not_eq_true _ ▸ hb

/-- Settles O30: every command is its moves, and these end with BUSY 0. -/
theorem everyCommandCompletesAndBusyFalls : Obligations.EveryCommandCompletesAndBusyFalls := fun i s hw =>
  ⟨_, exec_eq_command i s hw, runOps_not_busy _ _⟩

/-- The moves that leave RDATA: all but READ_BYTE's and SEG_LOOKUP's last ones (R86, R102). -/
def MicroOp.keepsRdata (op : MicroOp) : Bool :=
  match op with
  | .latchAcc => false
  | .lookup _ => false
  | _ => true

theorem runOp_rdata {op : MicroOp} (h : op.keepsRdata = true) (s : State) : (s.runOp op).rdata = s.rdata := by
  cases op with
  | latchAcc | lookup => exact absurd h nofun
  | _ => rfl

theorem keepsRdata_writeBitsOps (k : Nat) : (writeBitsOps k).all MicroOp.keepsRdata = true := by
  simp [writeBitsOps, pulseOps, holdOps, MicroOp.keepsRdata]

theorem keepsRdata_frameOps (s : State) (k : FrameKind) : (s.frameOps k).all MicroOp.keepsRdata = true := by
  simp only [State.frameOps, sendOps, List.all_cons, List.all_append, List.all_flatMap, keepsRdata_writeBitsOps]
  simp [holdOps, MicroOp.keepsRdata]

theorem keepsRdata_recvOps : recvOps.all MicroOp.keepsRdata = true := by
  decide

/-- No move of a command but its last writes RDATA. -/
theorem keepsRdata_moves (i : Instr) (s : State) : (moves i s).dropLast.all MicroOp.keepsRdata = true := by
  cases i with
  | segLookup nib => rfl
  | readByte addr =>
    rw [moves, List.dropLast_concat]
    exact keepsRdata_recvOps
  | init | initWiring =>
    rw [moves, State.initOps, List.dropLast_concat]
    simp only [List.all_append, List.all_cons, keepsRdata_frameOps]
    rfl
  | setBrightness | setRaw | setDp | setLedBrightness | setLedState =>
    simp only [moves, targetMoves]
    split
    · rw [List.dropLast_concat, keepsRdata_frameOps]
    · rw [List.dropLast_concat, keepsRdata_frameOps]
    · rfl
  | writeFrame | displayOn | displayOff | clear | setRawAll | showDec | showHex =>
    rw [moves, List.dropLast_concat, keepsRdata_frameOps]

/-- What a STATUS read shows of a machine with BUSY 1 and `b` in RDATA (R72). -/
def ShowsBusyWith (b : Byte) (v : BitVec 16) : Prop := v.getLsbD 0 = true ∧ v.extractLsb' 8 8 = b

/-- The STATUS word's bits, from BUSY up to RDATA (R72). -/
theorem getLsbD_status (s : State) (j : Nat) :
    s.status.getLsbD j =
      if j < 1 then s.busy
      else if j < 3 then (errBits s.err).getLsbD (j - 1)
      else if j < 8 then false else s.rdata.getLsbD (j - 8) := by
  change (s.rdata ++ 0#5 ++ errBits s.err ++ BitVec.ofBool s.busy : BitVec (8 + 5 + 2 + 1)).getLsbD j = _
  simp only [BitVec.getLsbD_append, BitVec.getLsbD_zero, Nat.sub_sub]
  by_cases h0 : j < 1
  · simp [Nat.lt_one_iff.mp h0]
  · rw [if_neg h0, if_neg h0]
    congr 1
    · rw [eq_iff_iff]
      omega
    · congr 1
      rw [eq_iff_iff]
      omega

theorem status_showsBusyWith {s : State} (hb : s.busy = true) : ShowsBusyWith s.rdata s.status := by
  constructor
  · rw [getLsbD_status, if_pos Nat.zero_lt_one, hb]
  · apply BitVec.eq_of_getLsbD_eq
    intro j hj
    rw [BitVec.getLsbD_extractLsb', getLsbD_status, if_neg (by omega), if_neg (by omega), if_neg (by omega),
      Nat.add_sub_cancel_left, decide_eq_true hj, Bool.true_and]

/-- HOST's reads have grown from `before` to `after` by reads that show BUSY 1 and `b` in RDATA. -/
def ReadsBusyWith (b : Byte) (before after : List HostRead) : Prop :=
  ∃ R, after = R ++ before ∧ ∀ v, .status v ∈ R → ShowsBusyWith b v

theorem ReadsBusyWith.refl (b : Byte) (l : List HostRead) : ReadsBusyWith b l l := ⟨[], rfl, nofun⟩

theorem ReadsBusyWith.trans {b : Byte} {l m n : List HostRead} (h1 : ReadsBusyWith b l m) (h2 : ReadsBusyWith b m n) :
    ReadsBusyWith b l n := by
  obtain ⟨R1, rfl, hR1⟩ := h1
  obtain ⟨R2, rfl, hR2⟩ := h2
  refine ⟨R2 ++ R1, (List.append_assoc ..).symm, fun v hv => ?_⟩
  rcases List.mem_append.mp hv with hv | hv
  · exact hR2 v hv
  · exact hR1 v hv

/-- A point while a command runs: the reads grow by a read of the machine as it stands; RDATA stays if BUSY does. -/
theorem hostPoint_reads {s : State} (hb : s.busy = true) :
    ReadsBusyWith s.rdata s.env.reads s.hostPoint.env.reads ∧ (s.hostPoint.busy = true → s.hostPoint.rdata = s.rdata) := by
  obtain ⟨e, w, i, r, b, heq, -, -, -, -, R, hr, hR⟩ | ⟨-, i, heq, -⟩ := hostPoint_edit s hb
  · rw [heq]
    exact ⟨⟨R, hr, fun v hv => hR v hv ▸ status_showsBusyWith hb⟩, fun _ => rfl⟩
  · rw [heq]
    exact ⟨.refl _ _, nofun⟩

/-- Every read HOST makes while moves run that write RDATA at most at their end shows BUSY 1 and the RDATA they began
with: a point of HOST stands before each move, none after the last (R177, log 17). -/
theorem runOps_reads {ops : List MicroOp} (s : State) (hb : s.busy = true)
    (hops : ops.dropLast.all MicroOp.keepsRdata = true) :
    ReadsBusyWith s.rdata s.env.reads (s.runOps ops).env.reads := by
  induction ops generalizing s with
  | nil => exact .refl _ _
  | cons op rest ih =>
    obtain ⟨hpoint, hrdata⟩ := hostPoint_reads (s := s.setSeq { s.seq with phase := op :: rest }) hb
    simp only [State.runOps]
    split
    · next hb1 =>
      refine hpoint.trans ?_
      cases rest with
      | nil => exact runOp_reads _ op ▸ .refl _ _
      | cons op' rest =>
        rw [List.dropLast_cons_cons, List.all_cons, Bool.and_eq_true] at hops
        obtain ⟨hop, hrest⟩ := hops
        have hrest := ih _ ((runOp_busy _ op).trans hb1) hrest
        rwa [runOp_reads, runOp_rdata hop, hrdata hb1] at hrest
    · exact hpoint

/-- Settles O31: no move of a command but its last writes RDATA, and no point of HOST stands after it. -/
theorem statusReadWhileBusyShowsTheOldResult : Obligations.StatusReadWhileBusyShowsTheOldResult := by
  intro i s t hx
  rw [exec_eq_command i s (wellFormed_of_exec hx)] at hx
  injection hx with hx
  obtain ⟨-, hrdata, -, -, -, -, -, henv⟩ := prepared_frame i s
  have hreads := runOps_reads ((prepared i s).setBusy true) rfl (keepsRdata_moves i s)
  rwa [← State.command, hx, State.setBusy_rdata, State.setBusy_env, hrdata, henv] at hreads

/-! ## The commands that write packed levels and LED bits (R120, R127, R128) -/

theorem target_pos {tgt : Target} (h0 : tgt ≠ 0) : 1 ≤ tgt.toNat :=
  Nat.one_le_iff_ne_zero.mpr fun h => h0 (BitVec.eq_of_toNat_eq h)

/-- A target in range other than ALL is its item's number (R11). -/
theorem targetSel_one {n : Nat} {tgt : Target} (h0 : tgt ≠ 0) (h : tgt.toNat ≤ n) : targetSel n tgt = .one tgt.toNat := by
  rw [targetSel, if_neg (Nat.one_le_iff_ne_zero.mp (target_pos h0)), if_pos h]

/-- What SET_BRIGHTNESS and SET_LED_BRIGHTNESS write to their array for a target in range: every nibble for ALL, else
the target's (R120, R127). -/
def writeLevels {m : Nat} (A : Vector Byte m) (tgt : Target) (lvl : Level) : Vector Byte m :=
  if tgt = 0 then setAllNib m lvl else setNib A tgt.toNat lvl

theorem getNib_writeLevels {m : Nat} (A : Vector Byte m) (tgt : Target) (lvl : Level) {k : Nat} (hk : 1 ≤ k)
    (hkm : k ≤ 2 * m) :
    getNib (writeLevels A tgt lvl) k = if tgt = 0 ∨ k = tgt.toNat then lvl else getNib A k := by
  by_cases h0 : tgt = 0
  · rw [writeLevels, if_pos h0, if_pos (.inl h0), getNib_setAllNib m k lvl hk hkm]
  · rw [writeLevels, if_neg h0, getNib_setNib A tgt.toNat k lvl (target_pos h0) hk hkm]
    simp only [h0, false_or]

theorem levelsClean_writeLevels {m : Nat} {A : Vector Byte m} (h : levelsClean A = true) (tgt : Target) (lvl : Level) :
    levelsClean (writeLevels A tgt lvl) = true := by
  unfold writeLevels
  split
  · exact levelsClean_setAllNib m lvl
  · exact levelsClean_setNib h _ lvl

theorem exec_setBrightness_inRange {s : State} {tgt : Target} (h : tgt.toNat ≤ s.cfg.val.nDigits) (lvl : Level) :
    exec (.setBrightness tgt lvl) s = .next ((s.setBrt (writeLevels s.disp.brt tgt lvl)).transact .conf1) := by
  by_cases h0 : tgt = 0
  · subst h0
    rfl
  · simp only [exec, execSetBrightness, targetSel_one h0 h, writeLevels, if_neg h0]

theorem exec_setLedBrightness_inRange {tgt : Target} (h : tgt.toNat ≤ nLeds) (lvl : Level) (s : State) :
    exec (.setLedBrightness tgt lvl) s = .next ((s.setLbrt (writeLevels s.disp.lbrt tgt lvl)).transact .ledbrt) := by
  by_cases h0 : tgt = 0
  · subst h0
    rfl
  · simp only [exec, execSetLedBrightness, targetSel_one h0 h, writeLevels, if_neg h0]

/-- Settles O39: in range the command is one transaction over `writeLevels`, out of range it is ignored. -/
theorem setBrightnessWritesItsNibbles : Obligations.SetBrightnessWritesItsNibbles := by
  intro tgt lvl s hq
  rcases Nat.lt_or_ge s.cfg.val.nDigits tgt.toNat with hout | hin
  · refine ⟨_, exec_setBrightness_outOfRange hout lvl, fun hin => absurd hout (Nat.not_lt.mpr hin), fun _ => ?_⟩
    exact ignored_quiet s hq
  · refine ⟨_, exec_setBrightness_inRange hin lvl, fun _ => ?_, fun hout => absurd hin (Nat.not_le.mpr hout)⟩
    rw [transact_quiet (s.setBrt (writeLevels s.disp.brt tgt lvl)) .conf1 hq (frameOf_ne_nil _ _ nofun)]
    exact ⟨rfl, fun k hk hk6 => getNib_writeLevels _ tgt lvl hk hk6, fun hc => levelsClean_writeLevels hc tgt lvl⟩

/-- Settles O48: as for SET_BRIGHTNESS, with LBRT's four bytes and the eight LEDs. -/
theorem setLedBrightnessWritesItsNibbles : Obligations.SetLedBrightnessWritesItsNibbles := by
  intro tgt lvl s hq
  rcases Nat.lt_or_ge nLeds tgt.toNat with hout | hin
  · refine ⟨_, exec_setLedBrightness_outOfRange hout lvl s, fun hin => absurd hout (Nat.not_lt.mpr hin), fun _ => ?_⟩
    exact ignored_quiet s hq
  · refine ⟨_, exec_setLedBrightness_inRange hin lvl s, fun _ => ?_, fun hout => absurd hin (Nat.not_le.mpr hout)⟩
    rw [transact_quiet (s.setLbrt (writeLevels s.disp.lbrt tgt lvl)) .ledbrt hq (frameOf_ne_nil _ _ nofun)]
    exact ⟨rfl, fun k hk hk8 => getNib_writeLevels _ tgt lvl hk hk8, fun hc => levelsClean_writeLevels hc tgt lvl⟩

/-- What SET_LED_STATE writes to LSTATE for a target in range (R128). -/
def writeLeds (old : Byte) (tgt : Target) (on : Bool) : Byte :=
  if tgt = 0 then (if on then 0xFF else 0x00) else ledByte on tgt.toNat old

/-- LED `n` is bit `n - 1` (R25). -/
theorem getLsbD_ledBit {n k : Nat} (hn : 1 ≤ n) (hk : k < 8) : (ledBit n).getLsbD k = decide (n = k + 1) := by
  rw [ledBit, BitVec.getLsbD_shiftLeft, BitVec.getLsbD_one]
  rw [Bool.eq_iff_iff]
  simp only [Bool.and_eq_true, Bool.not_eq_true', decide_eq_true_eq, decide_eq_false_iff_not]
  omega

/-- Writing LED `n` sets or clears its own bit and leaves the others (R128). -/
theorem getLsbD_ledByte (on : Bool) {n : Nat} (hn : 1 ≤ n) (old : Byte) {k : Nat} (hk : k < 8) :
    (ledByte on n old).getLsbD k = if n = k + 1 then on else old.getLsbD k := by
  unfold ledByte
  split
  · next hon =>
    rw [BitVec.getLsbD_or, getLsbD_ledBit hn hk, hon]
    by_cases h : n = k + 1 <;> simp [h]
  · next hoff =>
    rw [BitVec.getLsbD_and, BitVec.getLsbD_not, getLsbD_ledBit hn hk, Bool.eq_false_of_not_eq_true hoff]
    by_cases h : n = k + 1 <;> simp [h, hk]

theorem getLsbD_allLeds (on : Bool) {k : Nat} (hk : k < 8) : (if on then 0xFF else 0x00 : Byte).getLsbD k = on := by
  revert k on
  decide

theorem getLsbD_writeLeds (old : Byte) (tgt : Target) (on : Bool) {k : Nat} (hk : k < 8) :
    (writeLeds old tgt on).getLsbD k = if tgt = 0 ∨ tgt.toNat = k + 1 then on else old.getLsbD k := by
  by_cases h0 : tgt = 0
  · rw [writeLeds, if_pos h0, if_pos (Or.inl h0), getLsbD_allLeds on hk]
  · rw [writeLeds, if_neg h0, getLsbD_ledByte on (target_pos h0) old hk]
    simp only [h0, false_or]

theorem exec_setLedState_inRange {tgt : Target} (h : tgt.toNat ≤ nLeds) (on : Bool) (s : State) :
    exec (.setLedState tgt on) s = .next ((s.setLstate (writeLeds s.disp.lstate tgt on)).transact .ledstate) := by
  by_cases h0 : tgt = 0
  · subst h0
    rfl
  · simp only [exec, execSetLedState, targetSel_one h0 h, writeLeds, if_neg h0]

/-- Settles O49: in range the command is one transaction over `writeLeds`, out of range it is ignored. -/
theorem setLedStateWritesItsBits : Obligations.SetLedStateWritesItsBits := by
  intro tgt on s hq
  rcases Nat.lt_or_ge nLeds tgt.toNat with hout | hin
  · refine ⟨_, exec_setLedState_outOfRange hout on s, fun hin => absurd hout (Nat.not_lt.mpr hin), fun _ => ?_⟩
    exact ignored_quiet s hq
  · refine ⟨_, exec_setLedState_inRange hin on s, fun _ => ?_, fun hout => absurd hin (Nat.not_le.mpr hout)⟩
    rw [transact_quiet (s.setLstate (writeLeds s.disp.lstate tgt on)) .ledstate hq (frameOf_ne_nil _ _ nofun)]
    exact ⟨rfl, fun k hk => getLsbD_writeLeds _ tgt on hk⟩

/-! ## The reset values (R33) -/

/-- Under the font of R81 and the reset wiring the segment table is R83's. -/
theorem romEntry_fontR81_wiringW0 (n : Nibble) : romEntry fontR81 wiringW0 n =
    [0x3F, 0x06, 0x5B, 0x4F, 0x66, 0x6D, 0x7D, 0x07, 0x7F, 0x6F, 0x77, 0x7C, 0x39, 0x5E, 0x79, 0x71].getD n.toNat 0 := by
  revert n
  decide

/-- Settles O17: every field of the reset state is R33's value as it stands; the table is read under R81's font. -/
theorem resetValues : Obligations.ResetValues := by
  intro c
  refine ⟨fun b hb => List.eq_of_mem_replicate hb, List.length_replicate, rfl, rfl, rfl, rfl, rfl, rfl, rfl, rfl, rfl, rfl,
    rfl, rfl, rfl, rfl, rfl, fun hfont n => ?_⟩
  rw [State.rom]
  exact hfont ▸ romEntry_fontR81_wiringW0 n

end Sys2Proof.Machine

/-! PROOFS. The statements of the family 20_memory: a polling host's acts wait for a command's end, and a receiver of the wire
gets the frame a write transaction sends. -/

namespace Sys2Proof.Machine

/-! ## A host that polls (R51, R176)

A poll is not taken while a command runs, and neither preparing a command nor a move reads the acts behind it. -/

theorem prepared_setInbox (i : Instr) (s : State) (acts : List HostAct) :
    prepared i (s.setInbox acts) = (prepared i s).setInbox acts := by
  cases i with
  | setBrightness | setRaw | setDp | setLedBrightness | setLedState =>
    simp only [prepared, State.setInbox_cfg]
    split <;> rfl
  | _ => rfl

theorem frameOps_setInbox (s : State) (acts : List HostAct) (k : FrameKind) :
    (s.setInbox acts).frameOps k = s.frameOps k := by
  cases k <;> rfl

theorem moves_setInbox (i : Instr) (s : State) (acts : List HostAct) : moves i (s.setInbox acts) = moves i s := by
  cases i with
  | setBrightness | setRaw | setDp | setLedBrightness | setLedState =>
    simp only [moves, targetMoves, prepared_setInbox, frameOps_setInbox, State.setInbox_cfg]
  | _ => rfl

theorem runOp_setInbox (s : State) (acts : List HostAct) (op : MicroOp) :
    (s.setInbox acts).runOp op = (s.runOp op).setInbox acts := by
  cases op <;> rfl

/-- At a point of a running command a poll waits (R51). -/
theorem hostPoint_poll {s : State} {rest : List HostAct} (hb : s.busy = true) (h : s.env.inbox = .poll :: rest) :
    s.hostPoint = s := by
  simp only [State.hostPoint, h, hb, if_true]

/-- Where HOST's point leaves the machine as it is, the next move is carried out. -/
theorem runOps_cons_of_point {op : MicroOp} {ops : List MicroOp} {s : State} (hb : s.busy = true)
    (hp : (s.setSeq { s.seq with phase := op :: ops }).hostPoint = s.setSeq { s.seq with phase := op :: ops }) :
    s.runOps (op :: ops) = ((s.setSeq { s.seq with phase := op :: ops }).runOp op).runOps ops := by
  rw [State.runOps, hp]
  exact if_pos hb

/-- Behind a poll the moves run as they do for a host that does nothing. -/
theorem runOps_poll (ops : List MicroOp) (rest : List HostAct) (s : State) (hb : s.busy = true) (hq : s.Quiet) :
    (s.setInbox (.poll :: rest)).runOps ops = (s.runOps ops).setInbox (.poll :: rest) := by
  induction ops generalizing s with
  | nil => rfl
  | cons op ops ih =>
    have hquiet := runOps_cons_of_point (op := op) (ops := ops) hb (hostPoint_quiet _ hq)
    have hpoll := runOps_cons_of_point (s := s.setInbox (.poll :: rest)) (op := op) (ops := ops) hb (hostPoint_poll hb rfl)
    have hrest := ih ((s.setSeq { s.seq with phase := op :: ops }).runOp op) ((runOp_busy _ op).trans hb)
      ((runOp_inbox _ op).trans hq)
    rw [hpoll, hquiet, ← hrest, ← runOp_setInbox]
    rfl

/-- Settles O14: a command is its moves, prepared from what the inbox plays no part in, and `runOps_poll` runs them. -/
theorem pollingHostWaitsForCompletion : Obligations.PollingHostWaitsForCompletion := by
  intro i s rest hw hin
  have hs : s = s.setInbox (.poll :: rest) := by rw [← hin]; rfl
  refine ⟨_, exec_eq_command i _ hw, ?_⟩
  rw [hs, exec_eq_command i _ hw]
  simp only [prepared_setInbox, moves_setInbox]
  exact congrArg _ (runOps_poll (moves i s) rest (((prepared i s).setInbox []).setBusy true) rfl rfl)

/-! ## A receiver of the wire (R42, R43, R95) -/

/-- The receiver inside its first transaction between two bits: select low, clock high, `bits` taken so far. -/
def Receiver.midFrame (dio : Bool) (bits : List Bool) : Receiver :=
  { sel := false, clk := true, dio := dio, bits := bits, frames := [] }

/-- One bit's events have one rising edge, at which the receiver takes that bit. -/
theorem see_bitEvents (dio : Bool) (bits : List Bool) (b : Bool) :
    (bitEvents b).foldl Receiver.see (.midFrame dio bits) = .midFrame b (bits ++ [b]) := rfl

theorem see_bits (l : List Bool) (dio : Bool) (bits : List Bool) :
    (l.flatMap bitEvents).foldl Receiver.see (.midFrame dio bits) = .midFrame (l.getLastD dio) (bits ++ l) := by
  induction l generalizing dio bits with
  | nil => rw [List.append_nil]; rfl
  | cons b l ih =>
    rw [List.flatMap_cons, List.foldl_append, see_bitEvents, ih, List.getLastD_cons, List.append_assoc,
      List.singleton_append]

/-- A frame's bytes go on the wire bit by bit, in the order of `frameBits` (R94, R97). -/
theorem flatMap_byteEvents (F : List Byte) : F.flatMap byteEvents = (frameBits F).flatMap bitEvents := by
  rw [frameBits, List.flatMap_assoc]
  exact List.flatMap_congr fun b _ => (List.flatMap_map ..).symm

/-- A receiver of one write transaction gets the frame's bits, in one transaction. -/
theorem receivedBits_sendEvents (F : List Byte) : receivedBits (sendEvents F) = [frameBits F] := by
  have hhead : [.clk true, .sel false, .hold .setup].foldl Receiver.see .start = .midFrame true [] := rfl
  rw [receivedBits, sendEvents, flatMap_byteEvents, List.foldl_append, List.foldl_append, hhead, see_bits,
    List.nil_append]
  rfl

/-- Settles O25: WRITE_FRAME under a quiet HOST is one transaction (`transact_quiet`), and `receivedBits_sendEvents` reads it. -/
theorem writeFrameReachesAReceiver : Obligations.WriteFrameReachesAReceiver := by
  intro F s h1 h7 hq
  have hne : s.frameOf (.raw F) ≠ [] := List.ne_nil_of_length_pos h1
  refine ⟨s.afterSend F, sendEvents F, ?_, trace_afterSend s F, receivedBits_sendEvents F⟩
  rw [exec, execWriteFrame, if_pos ⟨h1, h7⟩, transact_quiet s (.raw F) hq hne]
  rfl

end Sys2Proof.Machine

/-! PROOFS. The statements of the family 30_encoding: the decoder and the encoder are each other's inverse, the header byte and the
STATUS word have their fields, and a step does with a CMD write what the decoder says. -/

namespace Sys2Proof

/-! ## Reading an encoded command back (R63 to R68)

A view inside `D` of the word is that view of the operand field the encoder spelled. -/

/-- A view inside `D`, of a command whose operand field is `d`. -/
theorem extractLsb'_encode {n : Nat} {i : Instr} {d : BitVec n} (h : operandD i = d.setWidth 56) {start len : Nat}
    (hle : start + len ≤ 56) : (encode i).extractLsb' start len = d.extractLsb' start len := by
  rw [← BitVec.extractLsb'_extractLsb'_of_le hle, ← dField, dField_encode, h, BitVec.extractLsb'_setWidth_of_le hle]

theorem nibField_encode {i : Instr} {nib : Nibble} (h : operandD i = nib.setWidth 56) : nibField (encode i) = nib := by
  rw [nibField, extractLsb'_encode h (by decide), BitVec.extractLsb'_eq_self]

theorem valField_encode {i : Instr} {val : BitVec 32} (h : operandD i = val.setWidth 56) : valField (encode i) = val := by
  rw [valField, extractLsb'_encode h (by decide), BitVec.extractLsb'_eq_self]

theorem tgtField_encode {n : Nat} {i : Instr} {d : BitVec n} {tgt : Target} (h : operandD i = (d ++ tgt).setWidth 56) :
    tgtField (encode i) = tgt := by
  rw [tgtField, extractLsb'_encode h (by decide)]
  exact BitVec.extractLsb'_append_eq_right

theorem lvlField_encode {i : Instr} {lvl : Level} {tgt : Target} (h : operandD i = (lvl ++ tgt).setWidth 56) :
    lvlField (encode i) = lvl := by
  rw [lvlField, extractLsb'_encode h (by decide)]
  exact BitVec.extractLsb'_append_eq_left

theorem maskField_encode {i : Instr} {mask : Byte} {z tgt : BitVec 4} (h : operandD i = (mask ++ z ++ tgt).setWidth 56) :
    maskField (encode i) = mask := by
  rw [maskField, extractLsb'_encode h (by decide), BitVec.extractLsb'_append_eq_of_le (by decide)]
  exact BitVec.extractLsb'_append_eq_left

theorem onField_encode {i : Instr} {on : Bool} {z : BitVec 3} {tgt : Target}
    (h : operandD i = (BitVec.ofBool on ++ z ++ tgt).setWidth 56) : onField (encode i) = on := by
  rw [onField, getLsbD_encode, if_pos (by decide), h, BitVec.getLsbD_setWidth, BitVec.getLsbD_append,
    BitVec.getLsbD_append]
  simp

/-- A 3-bit view above a 3-bit field. -/
theorem extractLsb'_append_three {n : Nat} (hi : BitVec n) (lo : BitVec 3) (k : Nat) :
    (hi ++ lo).extractLsb' (k + 3) 3 = hi.extractLsb' k 3 :=
  BitVec.extractLsb'_append_eq_of_le (Nat.le_add_left 3 k)

theorem wiringField_encode (wv : Wiring) : wiringField (encode (.initWiring wv)) = wv := by
  simp (disch := decide) only [wiringField, extractLsb'_encode (i := .initWiring wv) rfl]
  simp only [extractLsb'_append_three, BitVec.extractLsb'_append_eq_right, BitVec.extractLsb'_eq_self]

/-- Bit `j` of a byte list laid out as `D` is bit `j % 8` of byte `j / 8` (R44). -/
theorem getLsbD_bytesToD (bytes : List Byte) {j : Nat} (hj : j < 56) :
    (bytesToD bytes).getLsbD j = (bytes.getD (j / 8) 0#8).getLsbD (j % 8) := by
  induction bytes generalizing j with
  | nil => simp [bytesToD]
  | cons b bytes ih =>
    have hcons : bytesToD (b :: bytes) = (bytesToD bytes <<< 8) ||| b.setWidth 56 := rfl
    rw [hcons, BitVec.getLsbD_or, BitVec.getLsbD_shiftLeft, BitVec.getLsbD_setWidth]
    by_cases h8 : j < 8
    · simp [hj, h8, Nat.div_eq_of_lt h8, Nat.mod_eq_of_lt h8]
    · obtain ⟨k, rfl⟩ : ∃ k, j = k + 8 := ⟨j - 8, by omega⟩
      simp [hj, ih (show k < 56 by omega)]

/-- Byte `k` of the word of a command whose operands are bytes (R66, R68). -/
theorem dByte_encode {i : Instr} {bytes : List Byte} (h : operandD i = bytesToD bytes) {k : Nat} (hk : k < 7) :
    dByte (encode i) k = bytes.getD k 0#8 := by
  have hd : operandD i = (bytesToD bytes).setWidth 56 := by rw [h, BitVec.setWidth_eq]
  rw [dByte, extractLsb'_encode hd (by omega)]
  apply BitVec.eq_of_getLsbD_eq
  intro j hj
  rw [BitVec.getLsbD_extractLsb', getLsbD_bytesToD _ (by omega), show (8 * k + j) / 8 = k by omega,
    show (8 * k + j) % 8 = j by omega, decide_eq_true hj, Bool.true_and]

theorem frameField_encode {bytes : List Byte} (h : bytes.length ≤ 7) : frameField (encode (.writeFrame bytes)) = bytes := by
  have hlen : (lenField (encode (.writeFrame bytes))).toNat = bytes.length := by
    rw [lenField_encode, operandLen, BitVec.toNat_ofNat, Nat.mod_eq_of_lt (by omega)]
  rw [frameField, hlen]
  apply List.ext_getElem (by simp)
  intro k _ hk
  rw [List.getElem_map, List.getElem_range, dByte_encode rfl (by omega), List.getD_eq_getElem _ _ hk]

/-- The operand view of a command's word, under the command's opcode, is the command. -/
theorem instrOf_encode {i : Instr} (h : WellFormed i) : instrOf (opcodeOf i) (encode i) = i := by
  cases i with
  | init | displayOn | displayOff | clear => rfl
  | segLookup nib | readByte nib => rw [opcodeOf, instrOf, nibField_encode rfl]
  | showDec val | showHex val => rw [opcodeOf, instrOf, valField_encode rfl]
  | setBrightness tgt lvl | setLedBrightness tgt lvl => rw [opcodeOf, instrOf, tgtField_encode rfl, lvlField_encode rfl]
  | setRaw tgt mask => rw [opcodeOf, instrOf, tgtField_encode rfl, maskField_encode rfl]
  | setDp tgt on | setLedState tgt on => rw [opcodeOf, instrOf, tgtField_encode rfl, onField_encode rfl]
  | initWiring wv => rw [opcodeOf, instrOf, wiringField_encode]
  | setRawAll m1 m2 m3 m4 m5 m6 =>
    simp (disch := decide) only [opcodeOf, instrOf, dByte_encode (i := .setRawAll m1 m2 m3 m4 m5 m6) rfl]
    rfl
  | writeFrame bytes =>
    obtain ⟨-, hlen⟩ : FrameLength bytes := of_decide_eq_true h
    rw [opcodeOf, instrOf, frameField_encode hlen]

/-! ## Encoding a decoded word again (R70) -/

theorem opcodeOf_instrOf (op : Opcode) (w : Word) : opcodeOf (instrOf op w) = op := by
  cases op <;> rfl

theorem operandLen_instrOf (op : Opcode) (w : Word) :
    operandLen (instrOf op w) = if op = .writeFrame then lenField w else 0 := by
  cases op with
  | writeFrame => simp [instrOf, operandLen, frameField]
  | _ => rfl

/-- Whether bit `j` of `D` belongs to an operand of the opcode, with `len` in LEN (R64 to R68). -/
def operandBit (op : Opcode) (len : BitVec 3) (j : Nat) : Bool :=
  match op with
  | .segLookup | .readByte => j < 4
  | .writeFrame => j < 8 * len.toNat
  | .init | .displayOn | .displayOff | .clear => false
  | .initWiring => j < 24
  | .setBrightness | .setLedBrightness => j < 7
  | .setRaw => j < 4 || (8 ≤ j && j < 16)
  | .setRawAll => j < 48
  | .showDec | .showHex => j < 32
  | .setDp | .setLedState => j < 4 || j = 7

theorem getLsbD_lowBits {n : Nat} (w : Word) {j : Nat} (hj : j < 56) :
    ((w.extractLsb' 0 n).setWidth 56).getLsbD j = (decide (j < n) && w.getLsbD j) := by
  simp [hj]

theorem getLsbD_bytesToD_dByte (w : Word) (n : Nat) {j : Nat} (hj : j < 56) :
    (bytesToD ((List.range n).map (dByte w))).getLsbD j = (decide (j < 8 * n) && w.getLsbD j) := by
  rw [getLsbD_bytesToD _ hj]
  by_cases h : j / 8 < n
  · have hbyte : ((List.range n).map (dByte w)).getD (j / 8) 0#8 = dByte w (j / 8) := by simp [h]
    rw [hbyte, dByte, BitVec.getLsbD_extractLsb', Nat.div_add_mod]
    simp [Nat.mod_lt]
    omega
  · simp [h]
    omega

/-- Bit `j` of an operand field of a target, a gap of `m` zeros and one more operand above it (R64). -/
theorem getLsbD_above_gap {n : Nat} (hi : BitVec n) (m : Nat) (tgt : Target) {j : Nat} (hj : j < 56) :
    ((hi ++ 0#m ++ tgt).setWidth 56).getLsbD j =
      if j < 4 then tgt.getLsbD j else if j - 4 < m then false else hi.getLsbD (j - 4 - m) := by
  rw [BitVec.getLsbD_setWidth, BitVec.getLsbD_append, BitVec.getLsbD_append, BitVec.getLsbD_zero, decide_eq_true hj,
    Bool.true_and]

/-- The encoder spells exactly the operand bits of the word it was decoded from. -/
theorem getLsbD_operandD_instrOf (op : Opcode) (w : Word) {j : Nat} (hj : j < 56) :
    (operandD (instrOf op w)).getLsbD j = (operandBit op (lenField w) j && w.getLsbD j) := by
  cases op with
  | init | displayOn | displayOff | clear => exact BitVec.getLsbD_zero
  | segLookup | readByte | showDec | showHex => exact getLsbD_lowBits w hj
  | writeFrame => exact getLsbD_bytesToD_dByte w _ hj
  | setRawAll => exact getLsbD_bytesToD_dByte w 6 hj
  | setBrightness | setLedBrightness =>
    have hd : lvlField w ++ tgtField w = w.extractLsb' 0 7 := BitVec.extractLsb'_append_extractLsb'_eq_extractLsb' rfl
    exact (congrArg (fun d => (d.setWidth 56).getLsbD j) hd).trans (getLsbD_lowBits w hj)
  | initWiring =>
    have hd : (wiringField w).dp ++ (wiringField w).g ++ (wiringField w).f ++ (wiringField w).e ++ (wiringField w).d ++
        (wiringField w).c ++ (wiringField w).b ++ (wiringField w).a = w.extractLsb' 0 24 := by
      simp only [wiringField, BitVec.extractLsb'_append_extractLsb'_eq_extractLsb']
    exact (congrArg (fun d => (d.setWidth 56).getLsbD j) hd).trans (getLsbD_lowBits w hj)
  | setRaw =>
    refine (getLsbD_above_gap (maskField w) 4 (tgtField w) hj).trans ?_
    rw [tgtField, maskField, BitVec.getLsbD_extractLsb', BitVec.getLsbD_extractLsb', operandBit]
    by_cases hlow : j < 4
    · simp [hlow]
    by_cases hgap : j < 8
    · simp [hlow, show j - 4 < 4 by omega, show ¬ 8 ≤ j by omega]
    · simp [hlow, show ¬ j - 4 < 4 by omega, show 8 + (j - 4 - 4) = j by omega, show 8 ≤ j by omega,
        show j - 4 - 4 < 8 ↔ j < 16 by omega]
  | setDp | setLedState =>
    refine (getLsbD_above_gap (BitVec.ofBool (onField w)) 3 (tgtField w) hj).trans ?_
    rw [tgtField, onField, BitVec.getLsbD_extractLsb', BitVec.getLsbD_ofBool, operandBit]
    by_cases hlow : j < 4
    · simp [hlow]
    by_cases hon : j = 7
    · simp [hon]
    · simp [hlow, hon]
      omega

/-- The reserved-zero bits are those of D that no operand has, and LEN where it is no frame's length (R62, R70). -/
theorem getLsbD_resvMask (op : Opcode) (len : BitVec 3) {j : Nat} (hj : j < 64) :
    (resvMask op len).getLsbD j =
      if j < 56 then !operandBit op len j else if j < 59 then decide (op ≠ .writeFrame) else false := by
  cases op with
  | writeFrame =>
    revert j len
    decide
  | _ =>
    revert j
    simp only [resvMask, operandBit]
    decide

/-- Clearing bits leaves a word exactly when none of them is set. -/
theorem and_not_eq_self_iff {n : Nat} (x m : BitVec n) : x &&& ~~~m = x ↔ x &&& m = 0 := by
  constructor
  · intro h
    rw [← h, BitVec.and_assoc, BitVec.not_and_self]
    exact BitVec.and_zero
  · intro h
    calc x &&& ~~~m = (x &&& m) ||| (x &&& ~~~m) := by rw [h]; exact BitVec.zero_or.symm
      _ = x := by rw [← BitVec.and_or_distrib_left, BitVec.or_not_self, BitVec.and_allOnes]

/-- Encoding what a word of an opcode spells gives the word back with its reserved bits cleared. -/
theorem encode_instrOf {op : Opcode} {w : Word} (h : opcodeBits op = opField w) :
    encode (instrOf op w) = w &&& ~~~resvMask op (lenField w) := by
  apply BitVec.eq_of_getLsbD_eq
  intro j hj
  rw [getLsbD_encode, BitVec.getLsbD_and, BitVec.getLsbD_not, getLsbD_resvMask _ _ hj, opcodeOf_instrOf, h,
    operandLen_instrOf, decide_eq_true hj, Bool.true_and]
  by_cases hD : j < 56
  · rw [if_pos hD, if_pos hD, getLsbD_operandD_instrOf op w hD, Bool.not_not, Bool.and_comm]
  rw [if_neg hD, if_neg hD]
  by_cases hLen : j < 59
  · have hbit : (lenField w).getLsbD (j - 56) = w.getLsbD j := by
      rw [lenField, BitVec.getLsbD_extractLsb', decide_eq_true (by omega), Bool.true_and, Nat.add_sub_cancel' (by omega)]
    rw [if_pos hLen, if_pos hLen]
    by_cases hop : op = .writeFrame <;> simp [hop, hbit]
  · have hbit : (opField w).getLsbD (j - 59) = w.getLsbD j := by
      rw [opField, BitVec.getLsbD_extractLsb', decide_eq_true (by omega), Bool.true_and, Nat.add_sub_cancel' (by omega)]
    rw [if_neg hLen, if_pos hj, if_neg hLen, hbit, Bool.not_false, Bool.and_true]

/-! ## The decoder (R71) -/

theorem operandIllegal_eq_false_iff (op : Opcode) (w : Word) :
    operandIllegal op w = false ↔ (op = .writeFrame → lenField w ≠ 0) ∧ w &&& resvMask op (lenField w) = 0 := by
  simp [operandIllegal]

theorem decode_eq_ok_iff (w : Word) (i : Instr) :
    decode w = .ok i ↔ ∃ op, opcodeBits op = opField w ∧ operandIllegal op w = false ∧ instrOf op w = i := by
  unfold decode
  constructor
  · intro h
    split at h
    · cases h
    · next op hop =>
      split at h
      · cases h
      · next hlegal =>
        injection h with h
        exact ⟨op, opcodeBits_of_opcodeOf? _ _ hop, Bool.not_eq_true _ ▸ hlegal, h⟩
  · rintro ⟨op, hop, hlegal, rfl⟩
    simp [← hop, opcodeOf?_opcodeBits, hlegal]

/-- The word of a command has no reserved bit set, and a frame's LEN is not 0 (R70). -/
theorem operandIllegal_encode {i : Instr} (h : WellFormed i) : operandIllegal (opcodeOf i) (encode i) = false := by
  refine (operandIllegal_eq_false_iff _ _).mpr ⟨?_, ?_⟩
  · intro hop
    cases i with
    | writeFrame bytes =>
      obtain ⟨h1, h7⟩ : FrameLength bytes := of_decide_eq_true h
      rw [lenField_encode, operandLen, Ne, ← BitVec.toNat_inj, BitVec.toNat_ofNat, Nat.mod_eq_of_lt (by omega)]
      exact Nat.ne_of_gt h1
    | _ => cases hop
  · have hclear := encode_instrOf (opField_encode i).symm
    rw [instrOf_encode h] at hclear
    exact (and_not_eq_self_iff _ _).mp hclear.symm

/-- Settles O1: a command's word has the command's opcode, no reserved bit, and the command as its operand view. -/
theorem encodeThenDecodeIsIdentity : Obligations.EncodeThenDecodeIsIdentity := fun i h =>
  (decode_eq_ok_iff _ i).mpr ⟨opcodeOf i, (opField_encode i).symm, operandIllegal_encode h, instrOf_encode h⟩

/-- What an opcode and its operand view spell is a command, where a frame's LEN is not 0. -/
theorem wellFormed_instrOf {op : Opcode} {w : Word} (h : op = .writeFrame → lenField w ≠ 0) : WellFormed (instrOf op w) := by
  cases op with
  | writeFrame =>
    have hlen : (frameField w).length = (lenField w).toNat := by rw [frameField, List.length_map, List.length_range]
    have hpos : (lenField w).toNat ≠ 0 := fun h0 => h rfl (BitVec.eq_of_toNat_eq h0)
    have hlt : (lenField w).toNat < 8 := (lenField w).isLt
    exact decide_eq_true ⟨by omega, by omega⟩
  | _ => rfl

/-- Settles O2: encoding again clears the reserved bits (`encode_instrOf`), and an accepted word has none set. -/
theorem decodedWordIsItsOwnEncoding : Obligations.DecodedWordIsItsOwnEncoding := by
  intro w i h
  obtain ⟨op, hop, hlegal, rfl⟩ := (decode_eq_ok_iff w i).mp h
  obtain ⟨hlen, hresv⟩ := (operandIllegal_eq_false_iff op w).mp hlegal
  exact ⟨wellFormed_instrOf hlen, (encode_instrOf hop).trans ((and_not_eq_self_iff _ _).mpr hresv)⟩

/-- A word the decoder accepts is a well-formed command (R70). -/
theorem wellFormed_of_decode {w : Word} {i : Instr} (h : decode w = .ok i) : WellFormed i :=
  (decodedWordIsItsOwnEncoding w i h).1

/-- Settles O5: each listed command encodes to its word, and by O1 the word decodes to it. -/
theorem exampleWordsDecodeAndEncode : Obligations.ExampleWordsDecodeAndEncode := by
  intro p hp
  have hencode : WellFormed p.1 ∧ encode p.1 = p.2 := by
    revert p
    decide
  obtain ⟨hwf, henc⟩ := hencode
  exact ⟨henc ▸ encodeThenDecodeIsIdentity p.1 hwf, henc⟩

end Sys2Proof

namespace Sys2Proof.Machine

/-! ## The header byte (R73) -/

/-- Settles O6: the four fields of every header byte; the two header kinds are `hdr` at their fixed fields. -/
theorem headerByteHasItsFields : Obligations.HeaderByteHasItsFields := by
  refine ⟨?_, fun _ _ => rfl, fun _ _ => rfl⟩
  decide

/-! ## One step of an idle machine out of reset (R71, R72) -/

section
variable {s : State} {rest : List HostAct} (hr : s.env.rst = false) (hb : s.busy = false)
include hr hb

/-- A CMD write is accepted (R71). -/
theorem step_writeCmd {w : Word} (hi : s.env.inbox = .writeCmd w :: rest) : step s = (s.setInbox rest).acceptWord w := by
  simp [step, State.stepOnce, hr, hb, hi]

theorem step_readStatus (hi : s.env.inbox = .readStatus :: rest) :
    step s = .next ((s.setInbox rest).recordRead (.status s.status)) := by
  simp [step, State.stepOnce, hr, hb, hi, State.hostPoint, State.hostAct, State.status]

theorem step_readErrinfo (hi : s.env.inbox = .readErrinfo :: rest) :
    step s = .next ((s.setInbox rest).recordRead (.errinfo s.errinfo)) := by
  simp [step, State.stepOnce, hr, hb, hi, State.hostPoint, State.hostAct]

end

theorem acceptWord_of_ok {w : Word} {i : Instr} (h : decode w = .ok i) (s : State) : s.acceptWord w = exec i s := by
  rw [State.acceptWord, h]

theorem acceptWord_of_error {w : Word} {e : DecodeError} (h : decode w = .error e) (s : State) :
    s.acceptWord w = .next (s.raiseError (errOfDecode e) w) := by
  rw [State.acceptWord, h]

theorem acceptWord_answers (s : State) (w : Word) : ∃ t, s.acceptWord w = .next t := by
  cases h : decode w with
  | ok i => exact ⟨_, (acceptWord_of_ok h s).trans (exec_eq_command i s (wellFormed_of_decode h))⟩
  | error e => exact ⟨_, acceptWord_of_error h s⟩

/-- Settles O54, by the branches of a step: the only one that runs a command runs a decoded one. -/
theorem everyStepAnswersANextState : Obligations.EveryStepAnswersANextState := by
  intro s
  rw [step, State.stepOnce]
  split
  · exact ⟨_, rfl⟩
  split
  · exact ⟨_, rfl⟩
  split
  · exact acceptWord_answers _ _
  · exact ⟨_, rfl⟩

/-! ## The STATUS word (R72): the fields above BUSY, from its bits -/

theorem extractLsb'_status_err (s : State) : s.status.extractLsb' 1 2 = errBits s.err := by
  apply BitVec.eq_of_getLsbD_eq
  intro j hj
  rw [BitVec.getLsbD_extractLsb', getLsbD_status, if_neg (by omega), if_pos (by omega), Nat.add_sub_cancel_left,
    decide_eq_true hj, Bool.true_and]

theorem extractLsb'_status_zero (s : State) : s.status.extractLsb' 3 5 = 0 := by
  apply BitVec.eq_of_getLsbD_eq
  intro j hj
  rw [BitVec.getLsbD_extractLsb', getLsbD_status, if_neg (by omega), if_neg (by omega), if_pos (by omega), Bool.and_false]
  exact BitVec.getLsbD_zero.symm

theorem extractLsb'_status_rdata (s : State) : s.status.extractLsb' 8 8 = s.rdata := by
  apply BitVec.eq_of_getLsbD_eq
  intro j hj
  rw [BitVec.getLsbD_extractLsb', getLsbD_status, if_neg (by omega), if_neg (by omega), if_neg (by omega),
    Nat.add_sub_cancel_left, decide_eq_true hj, Bool.true_and]

/-- Settles O7, field by field, and by the two steps that read a port. -/
theorem statusWordLayout : Obligations.StatusWordLayout := fun s =>
  ⟨⟨getLsbD_status s 0, extractLsb'_status_err s, extractLsb'_status_zero s, extractLsb'_status_rdata s⟩,
    fun _ hr hb => ⟨step_readStatus hr hb, step_readErrinfo hr hb⟩⟩

theorem decodeTableWord_eq_some {nbits w : Nat} {i : Instr} (h : decodeTableWord nbits w = some i) :
    decode (BitVec.ofNat 64 (w % 2 ^ nbits)) = .ok i := by
  rw [decodeTableWord] at h
  split at h
  · next hd => injection h with h; exact h ▸ hd
  · cases h

/-- Settles O9: `withFetchWord` places its word as a CMD write of an idle machine out of reset. -/
theorem stepRunsTheDecodedCommand : Obligations.StepRunsTheDecodedCommand := by
  constructor
  · intro s w i rest hr hb hi hd
    rw [step_writeCmd hr hb hi, acceptWord_of_ok hd]
  · intro s nbits w i hd
    rw [step_writeCmd (s := s.withFetchWord nbits w) rfl rfl rfl, acceptWord_of_ok (decodeTableWord_eq_some hd)]
    rfl

/-- Settles O10: the rejected word is only raised as an error, and `State.raiseError` keeps the first one. -/
theorem illegalWordChangesOnlyTheErrorRegisters : Obligations.IllegalWordChangesOnlyTheErrorRegisters := by
  intro s w e rest hr hb hi hd
  rw [step_writeCmd hr hb hi, acceptWord_of_error hd]
  constructor
  · intro he
    exact congrArg _ (if_pos he)
  · intro he
    exact congrArg _ (raiseError_of_err (s := s.setInbox rest) he _ w)

/-- Settles O26: such a frame is no well-formed command. -/
theorem writeFrameRefusesIllFormedTerms : Obligations.WriteFrameRefusesIllFormedTerms := by
  intro F s hF
  refine exec_of_not_wellFormed _ s fun h => ?_
  obtain ⟨h1, h7⟩ : FrameLength F := of_decide_eq_true h
  omega

end Sys2Proof.Machine

/-! PROOFS. The statements of the family 40_segment_encoder: the segment table, SEG_LOOKUP, and the commands that write
numerals and decimal points into the digits. -/

namespace Sys2Proof.Machine

/-! ## The segment table (R80, R86) -/

/-- The mask of a wired bit is the LED bit of the next number. -/
theorem bitMask_eq_ledBit (i : BitVec 3) : bitMask i = ledBit (i.toNat + 1) := rfl

theorem getLsbD_bitMask (i : BitVec 3) {k : Nat} (hk : k < 8) : (bitMask i).getLsbD k = decide (i.toNat = k) := by
  rw [bitMask_eq_ledBit, getLsbD_ledBit (Nat.le_add_left 1 _) hk]
  simp only [Nat.add_right_cancel_iff]

/-- Masks of wired bits ORed together have the bits some segment is wired to. -/
theorem getLsbD_foldr_bitMask (w : Wiring) (l : List Segment) {k : Nat} (hk : k < 8) :
    (l.foldr (fun s acc => bitMask (wireOf w s) ||| acc) 0#8).getLsbD k = true ↔ ∃ s ∈ l, (wireOf w s).toNat = k := by
  induction l with
  | nil => simp
  | cons s rest ih =>
    rw [List.foldr_cons, BitVec.getLsbD_or, Bool.or_eq_true, ih, getLsbD_bitMask _ hk, decide_eq_true_iff,
      List.exists_mem_cons_iff]

/-- Settles O22: `romEntry` folds the masks of the segments the font lights. -/
theorem romBitIsSetByALitSegment : Obligations.RomBitIsSetByALitSegment := fun font w n _ hk =>
  getLsbD_foldr_bitMask w (font[n.toNat]'n.isLt) hk

/-- Settles O21: the command has one move, then it is complete. -/
theorem segLookupReadsTheTable : Obligations.SegLookupReadsTheTable := by
  intro n s hq
  rw [exec, execSegLookup, command_quiet _ s hq]
  rfl

/-! ## Commands that write the digits (R113) -/

/-- Phases (b) and (c) of a command that has written the digit bytes `l`, HOST doing nothing. -/
theorem transact_setDig {s : State} (hq : s.Quiet) (l : List Byte) :
    (s.setDig l).transact .digit = (s.setDig l).afterSend (hdrWrite s.cfg s.cfg.val.pageDigit :: l) :=
  transact_quiet (s.setDig l) .digit hq (frameOf_ne_nil _ _ nofun)

@[simp] theorem digAt_setDig_afterSend (s : State) (l F : List Byte) (p : Nat) :
    ((s.setDig l).afterSend F).digAt p = l.getD p 0 := rfl

/-! SHOW_DEC and SHOW_HEX (R124, R125). -/

/-- A position is blank exactly where a leading zero would stand (R124). -/
theorem decByte_eq (s : State) (v : BitVec 32) (p : Nat) :
    s.decByte v p =
      if 1 ≤ p ∧ v.toNat < 10 ^ p then s.blank (s.digAt p) else s.glyph (s.digAt p) (decDigit v p) := by
  have hshown : (p = 0 ∨ 10 ^ p ≤ v.toNat) ↔ ¬(1 ≤ p ∧ v.toNat < 10 ^ p) := by omega
  rw [State.decByte, if_congr hshown rfl rfl, ite_not]

theorem getD_map_range (f : Nat → Byte) {n p : Nat} (hp : p < n) : ((List.range n).map f).getD p 0 = f p := by
  simp [List.getD_eq_getElem?_getD, hp]

/-- Settles O43: one transaction over the bytes `State.decByte` gives position by position. -/
theorem showDecWritesDecimalDigits : Obligations.ShowDecWritesDecimalDigits := by
  intro val s hq
  refine ⟨_, congrArg Host.Outcome.next (transact_setDig hq _), rfl, ?_, fun p hp => ?_⟩
  · exact (List.length_map _).trans List.length_range
  · rw [digAt_setDig_afterSend, getD_map_range _ hp, decByte_eq]
    rfl

theorem getD_set (l : List Byte) (i : Nat) (b : Byte) {p : Nat} (hp : p < l.length) :
    (l.set i b).getD p 0 = if i = p then b else l.getD p 0 := by
  rw [List.getD_eq_getElem?_getD, List.getElem?_set]
  split
  · next h => simp [h, hp]
  · rfl

/-- SHOW_HEX's digit bytes, position by position (R125). With one digit there is no position 1. -/
theorem getD_hexDigits (s : State) (val : BitVec 32) (hlen : s.disp.dig.length = s.cfg.val.nDigits) {p : Nat}
    (hp : p < s.cfg.val.nDigits) :
    (s.hexDigits val).getD p 0 =
      if p = 0 then s.glyph (s.digAt 0) (val.extractLsb' 0 4)
      else if p = 1 then s.glyph (s.digAt 1) (val.extractLsb' 4 4) else s.digAt p := by
  have hpl : p < s.disp.dig.length := hlen ▸ hp
  simp only [State.hexDigits]
  split
  · next h2 =>
    rw [getD_set _ _ _ (by rwa [List.length_set]), getD_set _ _ _ hpl]
    obtain rfl | rfl | hp2 : p = 0 ∨ p = 1 ∨ 2 ≤ p := by omega
    · rfl
    · rfl
    · have h0 : p ≠ 0 := by omega
      have h1 : p ≠ 1 := by omega
      simp only [h0, h0.symm, h1, h1.symm, if_false, State.digAt]
  · next h1 =>
    obtain rfl : p = 0 := by omega
    rw [getD_set _ _ _ hpl]
    rfl

/-- Settles O45: one transaction over the bytes of `State.hexDigits`. -/
theorem showHexWritesTwoDigits : Obligations.ShowHexWritesTwoDigits := by
  intro val s hq hlen
  refine ⟨_, congrArg Host.Outcome.next (transact_setDig hq _), rfl, ?_, fun p hp => ?_⟩
  · exact (length_hexDigits s val).trans hlen
  · rw [digAt_setDig_afterSend, getD_hexDigits s val hlen hp]
    rfl

/-! Where the DP shares no bit with a segment, a numeral leaves it (R84, R87). -/

/-- Such a wiring keeps the DP bit out of the segment table (R80). -/
theorem rom_and_dpMask {s : State} (hdp : ∀ seg : Segment, wireOf s.wiring seg ≠ s.wiring.dp) (n : Nibble) :
    s.rom n &&& dpMask s.wiring = 0#8 := by
  refine BitVec.eq_of_getLsbD_eq fun k hk => ?_
  rw [BitVec.getLsbD_zero]
  refine Bool.eq_false_of_not_eq_true fun hboth => ?_
  rw [BitVec.getLsbD_and, Bool.and_eq_true, dpMask, getLsbD_bitMask _ hk, decide_eq_true_iff] at hboth
  obtain ⟨hset, hpoint⟩ := hboth
  obtain ⟨seg, -, hseg⟩ := (romBitIsSetByALitSegment s.cfg.val.font s.wiring n k hk).mp hset
  exact hdp seg (BitVec.eq_of_toNat_eq (hseg.trans hpoint.symm))

theorem and_or_and_self {b m r : Byte} (hr : r &&& m = 0#8) : ((b &&& m) ||| r) &&& m = b &&& m := by
  rw [BitVec.and_or_distrib_right, hr, BitVec.or_zero, BitVec.and_assoc, BitVec.and_self]

/-- Settles O46: each byte O43 and O45 give is the digit itself, its DP bit alone, or that bit with a table entry. -/
theorem numeralsKeepTheDecimalPoint : Obligations.NumeralsKeepTheDecimalPoint := by
  intro val s hq hlen hdp
  obtain ⟨t, ht, -, -, hdec⟩ := showDecWritesDecimalDigits val s hq
  obtain ⟨u, hu, -, -, hhex⟩ := showHexWritesTwoDigits val s hq hlen
  refine ⟨t, u, ht, hu, fun p hp => ⟨?_, ?_⟩⟩
  · rw [hdec p hp]
    split
    · rw [BitVec.and_assoc, BitVec.and_self]
    · exact and_or_and_self (rom_and_dpMask hdp _)
  · rw [hhex p hp]
    split
    · next h0 => exact h0 ▸ and_or_and_self (rom_and_dpMask hdp _)
    · split
      · next h1 => exact h1 ▸ and_or_and_self (rom_and_dpMask hdp _)
      · rfl

/-! ## SET_DP (R126) -/

/-- SET_DP does to the DP bit what SET_LED_STATE does to an LED's. -/
theorem dpByte_eq_ledByte (w : Wiring) (on : Bool) (old : Byte) : dpByte w on old = ledByte on (w.dp.toNat + 1) old := rfl

theorem getLsbD_dpByte (w : Wiring) (on : Bool) (old : Byte) {k : Nat} (hk : k < 8) :
    (dpByte w on old).getLsbD k = if k = w.dp.toNat then on else old.getLsbD k := by
  rw [dpByte_eq_ledByte, getLsbD_ledByte on (Nat.le_add_left 1 _) old hk]
  simp only [Nat.add_right_cancel_iff, eq_comm]

/-- The digit bytes SET_DP leaves for a target in range (R126). -/
def State.dpDigits (s : State) (tgt : Target) (on : Bool) : List Byte :=
  if tgt = 0 then s.disp.dig.map (dpByte s.wiring on) else s.disp.dig.modify (tgt.toNat - 1) (dpByte s.wiring on)

theorem length_dpDigits (s : State) (tgt : Target) (on : Bool) : (s.dpDigits tgt on).length = s.disp.dig.length := by
  unfold State.dpDigits
  split
  · exact List.length_map _
  · exact List.length_modify _ _ _

theorem getD_dpDigits (s : State) (tgt : Target) (on : Bool) {p : Nat} (hp : p < s.disp.dig.length) :
    (s.dpDigits tgt on).getD p 0 =
      if tgt = 0 ∨ tgt.toNat = p + 1 then dpByte s.wiring on (s.digAt p) else s.digAt p := by
  rw [List.getD_eq_getElem _ _ (by rwa [length_dpDigits]), State.digAt, List.getD_eq_getElem _ _ hp]
  by_cases h0 : tgt = 0
  · simp only [State.dpDigits, h0, if_true, true_or, List.getElem_map]
  · have hone : tgt.toNat - 1 = p ↔ tgt.toNat = p + 1 := by
      have := target_pos h0
      omega
    simp only [State.dpDigits, h0, if_false, false_or, List.getElem_modify, hone]

theorem exec_setDp_inRange {s : State} {tgt : Target} (h : tgt.toNat ≤ s.cfg.val.nDigits) (on : Bool) :
    exec (.setDp tgt on) s = .next ((s.setDig (s.dpDigits tgt on)).transact .digit) := by
  by_cases h0 : tgt = 0
  · subst h0
    rfl
  · simp only [exec, execSetDp, targetSel_one h0 h, State.dpDigits, if_neg h0]

/-- Settles O47: in range the command is one transaction over `State.dpDigits`, out of range it is ignored. -/
theorem setDpWritesOnlyTheDpBit : Obligations.SetDpWritesOnlyTheDpBit := by
  intro tgt on s hq hlen
  rcases Nat.lt_or_ge s.cfg.val.nDigits tgt.toNat with hout | hin
  · refine ⟨_, exec_setDp_outOfRange hout on, fun hin => absurd hout (Nat.not_lt.mpr hin), fun _ => ?_⟩
    exact ignored_quiet s hq
  · refine ⟨_, exec_setDp_inRange hin on, fun _ => ?_, fun hout => absurd hin (Nat.not_le.mpr hout)⟩
    rw [transact_setDig hq]
    refine ⟨rfl, (length_dpDigits s tgt on).trans hlen, fun p hp k hk => ?_⟩
    rw [digAt_setDig_afterSend, getD_dpDigits s tgt on (hlen ▸ hp)]
    by_cases ht : tgt = 0 ∨ tgt.toNat = p + 1
    · simp only [ht, if_true, true_and, getLsbD_dpByte _ on _ hk]
    · simp only [ht, if_false, false_and]

end Sys2Proof.Machine

/-! PROOFS. The statements of the family 41_transport: the wire events of a write and of a read transaction, how many and
how long they are, and the bus discipline every command keeps. -/

namespace Sys2Proof.Machine

/-! ## The sizes of a transaction (R97, R100, R103) -/

/-- An event that every byte has `n` times on the wire: a frame's transaction has it that often per byte, beside the
events of an empty frame's. -/
theorem count_sendEvents {e : WireEvent} {n : Nat} (hn : ∀ b, (byteEvents b).count e = n) (F : List Byte) :
    (sendEvents F).count e = (sendEvents []).count e + n * F.length := by
  induction F with
  | nil => rfl
  | cons b rest ih =>
    simp only [sendEvents, List.flatMap_cons, List.flatMap_nil, List.count_append, hn, List.length_cons, Nat.mul_succ,
      List.count_nil] at ih ⊢
    omega

theorem length_sendEvents (F : List Byte) : (sendEvents F).length = 5 + 40 * F.length := by
  have hbyte (b : Byte) : (byteEvents b).length = 40 := rfl
  have hbytes : (F.flatMap byteEvents).length = 40 * F.length := by
    simp only [List.length_flatMap, hbyte, List.map_const', List.sum_replicate, smul_eq_mul, Nat.mul_comm]
  simp only [sendEvents, List.length_append, hbytes, List.length_cons, List.length_nil]
  omega

/-- Settles O28: what a byte or a sample puts on the wire has a fixed shape, whatever the data, so a write's counts
follow from a byte's and a read's are those of one list. -/
theorem transactionSizes : Obligations.TransactionSizes := by
  refine ⟨fun F => ⟨length_sendEvents F, ?_, ?_, ?_, ?_, ?_, ?_⟩, fun cmd lv => ⟨rfl, rfl, rfl, rfl, rfl, rfl, rfl⟩⟩
  · exact (count_sendEvents (fun _ => rfl) F).trans (Nat.zero_add (8 * F.length))
  · exact (count_sendEvents (fun _ => rfl) F).trans (Nat.add_comm 1 (8 * F.length))
  · exact (count_sendEvents (fun _ => rfl) F).trans (Nat.zero_add (16 * F.length))
  all_goals exact (count_sendEvents (n := 0) (fun _ => rfl) F).trans (by rw [Nat.zero_mul]; rfl)

/-! ## What the two transport commands do (R98, R102) -/

/-- Settles O24: WRITE_FRAME under a quiet HOST is one transaction of its own bytes (`transact_quiet`). -/
theorem writeFrameEmitsTheSendSequence : Obligations.WriteFrameEmitsTheSendSequence := by
  intro F s h1 h7 hq
  have hne : s.frameOf (.raw F) ≠ [] := List.ne_nil_of_length_pos h1
  refine ⟨?_, length_sendEvents F⟩
  rw [exec, execWriteFrame, if_pos ⟨h1, h7⟩, transact_quiet s (.raw F) hq hne]
  rfl

/-- Settles O27: `readByte_quiet` gives the end state, whose accumulator holds sample `j` in bit `j`. -/
theorem readByteAssemblesItsSamples : Obligations.ReadByteAssemblesItsSamples := by
  intro a s hq
  refine ⟨_, congrArg Host.Outcome.next (readByte_quiet s a hq), fun j hj => ?_, ?_, rfl, rfl⟩
  · exact (getLsbD_accAfter s.coming 8 j hj).trans (by rw [decide_eq_true hj, Bool.true_and])
  · rw [State.trace, List.reverse_append, List.reverse_reverse]
    rfl

/-! ## Least durations (R93, R185) -/

/-- Only holds take time, so a list of events takes as long as its holds. -/
theorem minCycles_eq_holds (c : Config) (l : List WireEvent) :
    minCycles c l = l.count (.hold .setup) * c.val.nSetup + l.count (.hold .half) * c.val.nHalf := by
  induction l with
  | nil => simp [minCycles]
  | cons e rest ih =>
    have hcons : minCycles c (e :: rest) = eventCycles c e + minCycles c rest := List.sum_cons
    rw [hcons, ih]
    cases e with
    | hold h => cases h <;> simp [eventCycles, holdCycles] <;> ring
    | _ => simp [eventCycles]

theorem minCycles_append (c : Config) (l m : List WireEvent) :
    minCycles c (l ++ m) = minCycles c l + minCycles c m := by
  rw [minCycles, List.map_append, List.sum_append]
  rfl

theorem minCycles_sendEvents (c : Config) (F : List Byte) :
    minCycles c (sendEvents F) = 2 * c.val.nSetup + 16 * F.length * c.val.nHalf := by
  obtain ⟨-, -, -, hhalf, hsetup, -⟩ := transactionSizes.1 F
  rw [minCycles_eq_holds, hhalf, hsetup]

theorem minCycles_recvEvents (c : Config) (cmd : Byte) (lv : Nat → Bool) :
    minCycles c (recvEvents cmd lv) = 2 * c.val.nSetup + 32 * c.val.nHalf := by
  obtain ⟨-, -, -, hhalf, hsetup, -⟩ := transactionSizes.2 cmd lv
  rw [minCycles_eq_holds, hhalf, hsetup]

/-- Two setup holds and `k` half-period holds last at least `4 + k` µs (R6, R15). -/
theorem microseconds_le_holds (c : Config) (k : Nat) :
    (4 + k) * c.val.fSys ≤ (2 * c.val.nSetup + k * c.val.nHalf) * 1000000 := by
  obtain ⟨-, -, ⟨-, hsetup⟩, ⟨-, hhalf⟩, -⟩ := c.property
  have hk : k * c.val.fSys ≤ k * (c.val.nHalf * 1000000) := Nat.mul_le_mul_left k hhalf
  linarith

theorem microseconds_le_sendEvents (c : Config) (F : List Byte) :
    (4 + 16 * F.length) * c.val.fSys ≤ minCycles c (sendEvents F) * 1000000 :=
  minCycles_sendEvents c F ▸ microseconds_le_holds c (16 * F.length)

/-- Frames sent one after the other last at least as long as R185 says of each. -/
theorem microseconds_le_frames (c : Config) (frames : List (List Byte)) :
    (frames.map fun F => 4 + 16 * F.length).sum * c.val.fSys ≤ minCycles c (frames.flatMap sendEvents) * 1000000 := by
  induction frames with
  | nil => simp
  | cons F rest ih =>
    have hF := microseconds_le_sendEvents c F
    rw [List.map_cons, List.sum_cons, List.flatMap_cons, minCycles_append]
    linarith

/-- INIT's four frames, from the zeroed buffer with the default levels (R116). -/
def State.initFrames (s : State) : List (List Byte) :=
  [s.zeroBuffer.frameOf .conf1, (s.zeroBuffer.setLbrt (setAllNib 4 s.cfg.val.defLedBrt)).frameOf .ledbrt,
    s.zeroBuffer.frameOf .digit, s.zeroBuffer.frameOf .dispon]

theorem length_initFrames (s : State) : s.initFrames.map List.length = [5, 5, s.cfg.val.nDigits + 1, 1] := by
  simp [State.initFrames, State.frameOf, State.zeroBuffer, displayReset]

theorem trace_runInit (s : State) (hq : s.Quiet) :
    s.runInit.trace = s.trace ++ s.initFrames.flatMap sendEvents := by
  have hlbrt (u : State) (v : Vector Byte 4) : (u.setLbrt v).trace = u.trace := rfl
  have hzero : s.zeroBuffer.trace = s.trace := rfl
  rw [runInit_quiet s hq]
  simp only [trace_afterSend, hlbrt, hzero, State.initFrames, List.flatMap_cons, List.flatMap_nil, List.append_assoc,
    List.append_nil]

/-- Settles O32: R185's counts of holds, and R15's bounds on a hold's cycles. -/
theorem leastDurations : Obligations.LeastDurations := by
  intro c
  refine ⟨fun F => ⟨minCycles_sendEvents c F, microseconds_le_sendEvents c F⟩, fun cmd lv =>
    ⟨minCycles_recvEvents c cmd lv, minCycles_recvEvents c cmd lv ▸ microseconds_le_holds c 32⟩, ?_⟩
  rintro s t rfl hq hx
  obtain rfl : s.runInit = t := Host.Outcome.next.inj hx
  have hsum : (s.initFrames.map fun F => 4 + 16 * F.length).sum = 208 + 16 * s.cfg.val.nDigits :=
    calc (s.initFrames.map fun F => 4 + 16 * F.length).sum
      _ = ((s.initFrames.map List.length).map fun n => 4 + 16 * n).sum := by rw [List.map_map]; rfl
      _ = 208 + 16 * s.cfg.val.nDigits := by
        rw [length_initFrames]
        simp only [List.map_cons, List.map_nil, List.sum_cons, List.sum_nil]
        omega
  exact ⟨_, trace_runInit s hq, hsum ▸ microseconds_le_frames s.cfg s.initFrames⟩

/-! ## Bus discipline (R92, R95, R99)

A whole transaction takes idle lines to idle lines and keeps the discipline between; a command's events are those of
such transactions, cut where RST abandons it. -/

/-- Events that keep the discipline from idle lines and leave the lines idle, for the events after them. -/
def KeepsDiscipline (E : List WireEvent) : Prop :=
  ∀ rest, busDiscipline true (E ++ rest) = busDiscipline true rest ∧
    dataStableWhileClockLow true (E ++ rest) = dataStableWhileClockLow true rest

theorem keepsDiscipline_nil : KeepsDiscipline [] := fun _ => ⟨rfl, rfl⟩

theorem KeepsDiscipline.append {A B : List WireEvent} (hA : KeepsDiscipline A) (hB : KeepsDiscipline B) :
    KeepsDiscipline (A ++ B) := by
  intro rest
  rw [List.append_assoc]
  exact ⟨(hA _).1.trans (hB rest).1, (hA _).2.trans (hB rest).2⟩

theorem keepsDiscipline_flatMap {α : Type} {f : α → List WireEvent} (h : ∀ a, KeepsDiscipline (f a)) (l : List α) :
    KeepsDiscipline (l.flatMap f) := by
  induction l with
  | nil => exact keepsDiscipline_nil
  | cons a rest ih => exact (h a).append ih

theorem keepsDiscipline_byteEvents (b : Byte) : KeepsDiscipline (byteEvents b) :=
  keepsDiscipline_flatMap (fun _ _ => ⟨rfl, rfl⟩) _

theorem keepsDiscipline_sendEvents (F : List Byte) : KeepsDiscipline (sendEvents F) :=
  (KeepsDiscipline.append (fun _ => ⟨rfl, rfl⟩) (keepsDiscipline_flatMap keepsDiscipline_byteEvents F)).append
    fun _ => ⟨rfl, rfl⟩

theorem keepsDiscipline_recvEvents (cmd : Byte) (lv : Nat → Bool) : KeepsDiscipline (recvEvents cmd lv) :=
  fun _ => ⟨rfl, rfl⟩

theorem busDiscipline_of_append {oe : Bool} {A B : List WireEvent} (h : busDiscipline oe (A ++ B) = true) :
    busDiscipline oe A = true := by
  induction A generalizing oe with
  | nil => rfl
  | cons e rest ih =>
    cases e with
    | sel | clk | hold => exact ih h
    | dout | ddirIn | ddirOut | sample =>
      obtain ⟨hoe, hrest⟩ := (Bool.and_eq_true _ _).mp h
      exact (Bool.and_eq_true _ _).mpr ⟨hoe, ih hrest⟩

theorem dataStable_of_append {clk : Bool} {A B : List WireEvent} (h : dataStableWhileClockLow clk (A ++ B) = true) :
    dataStableWhileClockLow clk A = true := by
  induction A generalizing clk with
  | nil => rfl
  | cons e rest ih =>
    cases e with
    | sel | clk | hold | sample => exact ih h
    | dout | ddirIn | ddirOut =>
      obtain ⟨hclk, hrest⟩ := (Bool.and_eq_true _ _).mp h
      exact (Bool.and_eq_true _ _).mpr ⟨hclk, ih hrest⟩

/-- However short the events are cut, they have kept the discipline. -/
theorem KeepsDiscipline.of_cut {A E : List WireEvent} (hE : KeepsDiscipline E) (h : A <+: E) :
    busDiscipline true A = true ∧ dataStableWhileClockLow true A = true := by
  obtain ⟨B, rfl⟩ := h
  obtain ⟨hbus, hdata⟩ := hE []
  rw [List.append_nil] at hbus hdata
  exact ⟨busDiscipline_of_append hbus, dataStable_of_append hdata⟩

/-! The moves of a command are whole transactions and moves that emit nothing. -/

/-- The moves inside BBSTC, which emit no wire event. -/
def MicroOp.internal (op : MicroOp) : Bool :=
  match op with
  | .dlyExpire | .clearAcc | .compose _ | .latchAcc | .lookup _ | .finish | .fillLbrt _ => true
  | _ => false

theorem trace_runOp_internal {op : MicroOp} (h : op.internal = true) (s : State) : (s.runOp op).trace = s.trace := by
  cases op with
  | dlyExpire | clearAcc | compose | latchAcc | lookup | finish | fillLbrt => rfl
  | _ => exact absurd h nofun

/-- What holds of internal moves and of the moves of whole transactions, and of moves put together from such, holds of
the moves of every command. -/
theorem moves_induct {P : List MicroOp → Prop} (hinternal : ∀ op, op.internal = true → P [op])
    (hsend : ∀ L, P (sendOps L)) (hrecv : ∀ a, P (.compose (.readCmd a) :: recvOps))
    (happend : ∀ a b, P a → P b → P (a ++ b)) (i : Instr) (s : State) : P (moves i s) := by
  have hframe (u : State) (k : FrameKind) : P (u.frameOps k) := happend [_] _ (hinternal _ rfl) (hsend _)
  have hfinish : P [.finish] := hinternal _ rfl
  have hinit (u : State) : P u.initOps :=
    happend _ _ (happend _ _ (happend _ _ (happend _ _ (hframe u _) (happend [_] _ (hinternal _ rfl) (hframe u _)))
      (hframe u _)) (hframe u _)) hfinish
  cases i with
  | segLookup nib => exact hinternal _ rfl
  | readByte addr => exact happend _ _ (hrecv addr) (hinternal _ rfl)
  | init | initWiring => exact hinit _
  | setBrightness | setRaw | setDp | setLedBrightness | setLedState =>
    simp only [moves, targetMoves]
    split
    · exact happend _ _ (hframe _ _) hfinish
    · exact happend _ _ (hframe _ _) hfinish
    · exact hfinish
  | writeFrame | displayOn | displayOff | clear | setRawAll | showDec | showHex =>
    exact happend _ _ (hframe _ _) hfinish

/-- Moves whose events keep the discipline from idle lines to idle lines. -/
def EmitsDisciplined (ops : List MicroOp) : Prop :=
  ∀ s : State, ∃ E, (ops.foldl State.runOp s).trace = s.trace ++ E ∧ KeepsDiscipline E

theorem EmitsDisciplined.append {a b : List MicroOp} (ha : EmitsDisciplined a) (hb : EmitsDisciplined b) :
    EmitsDisciplined (a ++ b) := by
  intro s
  obtain ⟨A, htA, hA⟩ := ha s
  obtain ⟨B, htB, hB⟩ := hb (a.foldl State.runOp s)
  refine ⟨A ++ B, ?_, hA.append hB⟩
  rw [List.foldl_append, htB, htA, List.append_assoc]

theorem emitsDisciplined_internal {op : MicroOp} (h : op.internal = true) : EmitsDisciplined [op] := fun s =>
  ⟨[], (trace_runOp_internal h s).trans (List.append_nil _).symm, keepsDiscipline_nil⟩

/-- `L` bytes sent are the transaction of the buffer's first `L` bytes (R97). -/
theorem trace_foldl_sendOps (s : State) (L : Nat) :
    ((sendOps L).foldl State.runOp s).trace =
      s.trace ++ sendEvents ((List.range L).map fun k => s.seq.frame.getD k 0#8) := by
  have hsplit : sendOps L =
      ([.clkHigh, .selLow] ++ holdOps .setup) ++ ((List.range L).flatMap writeBitsOps ++ (holdOps .setup ++ [.selHigh])) := by
    simp [sendOps]
  rw [hsplit, List.foldl_append, List.foldl_append, foldl_sendHead, foldl_bytes _ rfl, foldl_sendTail]
  simp [State.trace, State.afterBytes, sendEvents, List.flatMap_map]

theorem emitsDisciplined_sendOps (L : Nat) : EmitsDisciplined (sendOps L) := fun s =>
  ⟨_, trace_foldl_sendOps s L, keepsDiscipline_sendEvents _⟩

theorem emitsDisciplined_read (a : Nibble) : EmitsDisciplined (.compose (.readCmd a) :: recvOps) := by
  intro s
  refine ⟨recvEvents (hdrRead s.cfg a) s.coming, ?_, keepsDiscipline_recvEvents _ _⟩
  rw [List.foldl_cons, foldl_recvOps (s.runOp _) (hdrRead s.cfg a) s.coming rfl rfl, State.trace, List.reverse_append,
    List.reverse_reverse]
  rfl

theorem emitsDisciplined_moves (i : Instr) (s : State) : EmitsDisciplined (moves i s) :=
  moves_induct (fun _ h => emitsDisciplined_internal h) emitsDisciplined_sendOps emitsDisciplined_read
    (fun _ _ => EmitsDisciplined.append) i s

/-! A command cut by RST (R172). -/

theorem trace_runOp_extends (s : State) (op : MicroOp) : s.trace <+: (s.runOp op).trace := by
  have hemit (u : State) (e : WireEvent) : u.trace <+: (u.emit e).trace :=
    ⟨[e], (List.reverse_cons (a := e) (as := u.env.wire)).symm⟩
  cases op with
  | dlyExpire | clearAcc | compose | latchAcc | lookup | finish | fillLbrt => exact List.prefix_rfl
  | _ => exact hemit _ _

theorem trace_foldl_extends (ops : List MicroOp) (s : State) : s.trace <+: (ops.foldl State.runOp s).trace :=
  List.foldlRecOn (motive := fun u : State => s.trace <+: u.trace) ops State.runOp List.prefix_rfl
    fun u hu op _ => hu.trans (trace_runOp_extends u op)

theorem trace_foldl_take (ops : List MicroOp) (s : State) (n : Nat) :
    ((ops.take n).foldl State.runOp s).trace <+: (ops.foldl State.runOp s).trace := by
  have h := trace_foldl_extends (ops.drop n) ((ops.take n).foldl State.runOp s)
  rwa [← List.foldl_append, List.take_append_drop] at h

theorem trace_prepared (i : Instr) (s : State) : ((prepared i s).setBusy true).trace = s.trace := by
  obtain ⟨-, -, -, -, -, -, -, henv⟩ := prepared_frame i s
  exact congrArg (fun e : Env => e.wire.reverse) henv

/-- Whatever HOST does, the events of a command are the first of those its moves emit. -/
theorem trace_exec_extends {i : Instr} {s t : State} (h : exec i s = .next t) :
    s.trace <+: t.trace ∧ t.trace <+: ((moves i s).foldl State.runOp ((prepared i s).setBusy true)).trace := by
  rw [← trace_prepared i s]
  obtain ⟨e, w, ib, r, b, rfl, -⟩ | ⟨-, n, ib, r, -, rfl⟩ := exec_cases i s t h
  · exact ⟨trace_foldl_extends _ _, List.prefix_rfl⟩
  · exact ⟨trace_foldl_extends _ _, trace_foldl_take _ _ n⟩

/-- Settles O29: the events are cut from those of the command's whole transactions, which keep the discipline. -/
theorem everyCommandKeepsBusDiscipline : Obligations.EveryCommandKeepsBusDiscipline := by
  intro i s t _ _ hx
  obtain ⟨⟨E, hE⟩, hcut⟩ := trace_exec_extends hx
  obtain ⟨M, hM, hdisc⟩ := emitsDisciplined_moves i s ((prepared i s).setBusy true)
  rw [← hE, hM, trace_prepared, List.prefix_append_right_inj] at hcut
  exact ⟨E, hE.symm, hdisc.of_cut hcut⟩

end Sys2Proof.Machine

/-! PROOFS. The statements of the family 42_frame_composer: packed nibbles, INIT and the commands that send one frame of the
display registers. -/

namespace Sys2Proof.Machine

/-! ## Packed nibbles (R115) -/

/-- Settles O33, by the two read-after-write rules of a packed array. -/
theorem packedNibbleReadsBackAfterWrite : Obligations.PackedNibbleReadsBackAfterWrite := fun m A t u v ht _ hu hum =>
  ⟨getNib_setNib A t u v ht hu hum, getNib_setAllNib m u v hu hum⟩

/-- Writing both nibbles of a byte leaves nothing of the old byte, its bits 3 and 7 included. -/
theorem nibbleByte_both (old : Byte) (lo hi : Level) :
    nibbleByte 1 (nibbleByte 0 old lo) hi = hi.setWidth 4 ++ lo.setWidth 4 := by
  have hold : old &&& 0xF0#8 &&& 0x0F#8 = 0#8 := by rw [BitVec.and_assoc]; exact BitVec.and_zero
  have hbytes : (lo.setWidth 8 &&& 0x0F#8) ||| (hi.setWidth 8 <<< 4) = hi.setWidth 4 ++ lo.setWidth 4 := by
    revert lo hi
    decide
  rw [nibbleByte, nibbleByte, if_neg Nat.one_ne_zero, if_pos rfl, BitVec.and_or_distrib_right, hold, BitVec.zero_or, hbytes]

/-- Levels written to items 1 and 2 fill the first byte of a packed array (R115). -/
theorem packedAt_setNib_pair {m : Nat} (A : Vector Byte m) (lo hi : Level) (hm : 0 < m) :
    packedAt (setNib (setNib A 1 lo) 2 hi) 0 = hi.setWidth 4 ++ lo.setWidth 4 := by
  rw [setNib_eq, packedAt_setIfInBounds _ _ _ hm, setNib_eq, packedAt_setIfInBounds _ _ _ hm]
  exact nibbleByte_both _ lo hi

/-- SET_BRIGHTNESS in range, HOST doing nothing, leaves BRT at the levels written, and HOST quiet (R120). -/
theorem exec_setBrightness_quiet {s : State} (hq : s.Quiet) {tgt : Target} (h : tgt.toNat ≤ s.cfg.val.nDigits)
    (lvl : Level) :
    ∃ t, exec (.setBrightness tgt lvl) s = .next t ∧ t.Quiet ∧ t.cfg = s.cfg ∧
      t.disp.brt = writeLevels s.disp.brt tgt lvl := by
  refine ⟨_, exec_setBrightness_inRange h lvl, ?_⟩
  rw [transact_quiet (s.setBrt (writeLevels s.disp.brt tgt lvl)) .conf1 hq (frameOf_ne_nil _ _ nofun)]
  exact ⟨hq, rfl, rfl⟩

/-- Settles O34: the two commands write both nibbles of `BRT[0]`. -/
theorem brightnessPairPacksTo0x35 : Obligations.BrightnessPairPacksTo0x35 := by
  intro s hq h2
  obtain ⟨t, ht, htq, htc, htb⟩ := exec_setBrightness_quiet (tgt := 1) hq (Nat.le_of_lt h2) 5
  obtain ⟨u, hu, -, -, hub⟩ := exec_setBrightness_quiet (tgt := 2) htq (htc ▸ h2) 3
  refine ⟨t, u, ht, hu, ?_⟩
  rw [hub, htb]
  exact packedAt_setNib_pair s.disp.brt 5 3 (by decide)

/-! ## INIT and INIT_WIRING (R116, R117) -/

/-- A level in both nibbles of a byte is 0x11 times the level. -/
theorem setAllNib_eq_replicate_mul (m : Nat) (v : Level) : setAllNib m v = Vector.replicate m (v.setWidth 8 * 0x11) := by
  have hbyte : v.setWidth 8 ||| (v.setWidth 8 <<< 4) = v.setWidth 8 * 0x11#8 := by
    revert v
    decide
  exact congrArg (Vector.replicate m) hbyte

/-- The registers INIT leaves, HOST doing nothing: the zeroed buffer with both default brightnesses (R116). -/
theorem runInit_disp {s : State} (hq : s.Quiet) :
    s.runInit.disp = { s.zeroBuffer.disp with lbrt := setAllNib 4 s.cfg.val.defLedBrt } := by
  rw [runInit_quiet s hq]
  rfl

/-- INIT's four frames carry the registers it leaves: the buffer is not written after the frame that sends it (R116). -/
theorem initFrames_eq_registers {s : State} (hq : s.Quiet) :
    s.initFrames =
      [[hdrWrite s.cfg s.cfg.val.pageConf1, conf1ModeByte s.cfg] ++ s.runInit.disp.brt.toList,
        hdrWrite s.cfg s.cfg.val.pageLedbrt :: s.runInit.disp.lbrt.toList,
        hdrWrite s.cfg s.cfg.val.pageDigit :: s.runInit.disp.dig, [s.cfg.val.dispOnCmd]] := by
  rw [runInit_disp hq]
  rfl

/-- Settles O35: `runInit_quiet` gives the end state, `trace_runInit` the four transactions. -/
theorem initSetsDefaultsAndSendsFourFrames : Obligations.InitSetsDefaultsAndSendsFourFrames := by
  intro s hq
  refine ⟨s.runInit, rfl, ?_, ?_⟩
  · rw [← setAllNib_eq_replicate_mul, ← setAllNib_eq_replicate_mul, runInit_quiet s hq]
    simp only [State.afterSend, State.setLbrt, State.setDisp]
    rfl
  · rw [trace_runInit s hq, initFrames_eq_registers hq]
    simp only [List.flatMap_cons, List.flatMap_nil, List.append_nil, List.append_assoc]

/-- INIT neither reads nor writes the wiring, HOST doing nothing: none of its four frames carries it. -/
theorem runInit_setWiring {s : State} (hq : s.Quiet) (w : Wiring) : (s.setWiring w).runInit = s.runInit.setWiring w := by
  rw [runInit_quiet s hq, runInit_quiet (s.setWiring w) hq]
  rfl

/-- Settles O36: INIT_WIRING is INIT after the wiring is written, and INIT carries the wiring along. -/
theorem initWiringIsInitUnderTheNewWiring : Obligations.InitWiringIsInitUnderTheNewWiring := fun wv s hq =>
  ⟨s.runInit, rfl, congrArg Host.Outcome.next (runInit_setWiring hq wv)⟩

/-! ## DISPLAY_ON and DISPLAY_OFF (R118, R119) -/

/-- Settles O37: one transaction of the frame DISPON. -/
theorem displayOnSendsItsByte : Obligations.DisplayOnSendsItsByte := fun s hq =>
  congrArg Host.Outcome.next (transact_quiet s .dispon hq (frameOf_ne_nil s _ nofun))

/-- Settles O38: one transaction of the frame DISPOFF. -/
theorem displayOffSendsItsByte : Obligations.DisplayOffSendsItsByte := fun s hq =>
  congrArg Host.Outcome.next (transact_quiet s .dispoff hq (frameOf_ne_nil s _ nofun))

/-! ## CLEAR, SET_RAW and SET_RAW_ALL (R121, R122, R123) -/

/-- Settles O40: one transaction over the zeroed digits. -/
theorem clearBlanksEveryDigit : Obligations.ClearBlanksEveryDigit := fun _ hq =>
  congrArg Host.Outcome.next (transact_setDig hq _)

/-- The digit bytes SET_RAW leaves for a target in range (R122). -/
def State.rawDigits (s : State) (tgt : Target) (mask : Byte) : List Byte :=
  if tgt = 0 then List.replicate s.cfg.val.nDigits mask else s.disp.dig.set (tgt.toNat - 1) mask

theorem length_rawDigits {s : State} (hlen : s.disp.dig.length = s.cfg.val.nDigits) (tgt : Target) (mask : Byte) :
    (s.rawDigits tgt mask).length = s.cfg.val.nDigits := by
  unfold State.rawDigits
  split
  · exact List.length_replicate
  · rw [List.length_set, hlen]

theorem getD_rawDigits {s : State} (hlen : s.disp.dig.length = s.cfg.val.nDigits) (tgt : Target) (mask : Byte) {p : Nat}
    (hp : p < s.cfg.val.nDigits) :
    (s.rawDigits tgt mask).getD p 0 = if tgt = 0 ∨ tgt.toNat = p + 1 then mask else s.digAt p := by
  by_cases h0 : tgt = 0
  · rw [State.rawDigits, if_pos h0, if_pos (.inl h0), List.getD_replicate _ hp]
  · have hone : tgt.toNat - 1 = p ↔ tgt.toNat = p + 1 := by
      have := target_pos h0
      omega
    rw [State.rawDigits, if_neg h0, getD_set _ _ _ (hlen ▸ hp)]
    simp only [h0, false_or, hone, State.digAt]

theorem exec_setRaw_inRange {s : State} {tgt : Target} (h : tgt.toNat ≤ s.cfg.val.nDigits) (mask : Byte) :
    exec (.setRaw tgt mask) s = .next ((s.setDig (s.rawDigits tgt mask)).transact .digit) := by
  by_cases h0 : tgt = 0
  · subst h0
    rfl
  · simp only [exec, execSetRaw, targetSel_one h0 h, State.rawDigits, if_neg h0]

/-- Settles O41: in range the command is one transaction over `State.rawDigits`, out of range it is ignored. -/
theorem setRawOverwritesItsDigits : Obligations.SetRawOverwritesItsDigits := by
  intro tgt mask s hq hlen
  rcases Nat.lt_or_ge s.cfg.val.nDigits tgt.toNat with hout | hin
  · refine ⟨_, exec_setRaw_outOfRange hout mask, fun hin => absurd hout (Nat.not_lt.mpr hin), fun _ => ?_⟩
    exact ignored_quiet s hq
  · refine ⟨_, exec_setRaw_inRange hin mask, fun _ => ?_, fun hout => absurd hin (Nat.not_le.mpr hout)⟩
    rw [transact_setDig hq]
    exact ⟨rfl, length_rawDigits hlen tgt mask, fun p hp => getD_rawDigits hlen tgt mask hp⟩

/-- Settles O42: one transaction over the array's first N_DIGITS bytes; the array has six, and N_DIGITS is at most 6. -/
theorem setRawAllStoresTheArray : Obligations.SetRawAllStoresTheArray := by
  intro m1 m2 m3 m4 m5 m6 s hq
  obtain ⟨⟨-, hn⟩, -⟩ := s.cfg.property
  refine ⟨_, congrArg Host.Outcome.next (transact_setDig hq _), rfl, ?_, fun p hp => ?_⟩
  · exact List.length_take_of_le hn
  · rw [digAt_setDig_afterSend, List.getD_eq_getElem?_getD, List.getElem?_take_of_lt hp, ← List.getD_eq_getElem?_getD]

/-! ## SHOW_DEC of a value too large for the display (R124) -/

/-- The low `n` decimal digits of a value are the value's own. -/
theorem mod_ten_pow_digit (x : Nat) {p n : Nat} (hp : p < n) : x % 10 ^ n / 10 ^ p % 10 = x / 10 ^ p % 10 := by
  obtain ⟨k, rfl⟩ := Nat.exists_eq_add_of_lt hp
  calc x % 10 ^ (p + k + 1) / 10 ^ p % 10
    _ = x % (10 ^ p * 10 ^ (k + 1)) / 10 ^ p % 10 := by rw [Nat.add_assoc, Nat.pow_add]
    _ = x / 10 ^ p % 10 ^ (k + 1) % 10 := by rw [Nat.mod_mul_right_div_self]
    _ = x / 10 ^ p % 10 := Nat.mod_mod_of_dvd _ (Dvd.intro_left _ rfl)

/-- Settles O44: such a value is at least `10^p` at every position `p`, so O43 shows its digit there. -/
theorem showDecOverflowBlanksNothing : Obligations.ShowDecOverflowBlanksNothing := by
  intro val s hq hbig
  obtain ⟨t, ht, -, -, hdig⟩ := showDecWritesDecimalDigits val s hq
  refine ⟨t, ht, fun p hp => ?_⟩
  have hshown : 10 ^ p ≤ val.toNat := (Nat.pow_le_pow_right (by decide) hp.le).trans hbig
  rw [hdig p hp, if_neg fun hblank => Nat.not_lt.mpr hshown hblank.2, mod_ten_pow_digit _ hp]

end Sys2Proof.Machine

/-! PROOFS. The statements of the family 60_exceptions: which words raise an error, what a CMD write does that meets a running
command, and the strict step that takes ERR as a fault mark. -/

namespace Sys2Proof

/-! ## Which words raise an error (R153, R154) -/

/-- The assigned opcodes are 0x01 to 0x10 (R69). -/
theorem opcodeOf?_eq_none_iff (b : BitVec 5) : opcodeOf? b = none ↔ b = 0 ∨ 0x11 ≤ b.toNat := by
  revert b
  decide

theorem decode_eq_illegalOp_iff (w : Word) : decode w = .error .illegalOp ↔ opcodeOf? (opField w) = none := by
  unfold decode
  split
  · next hop => simp [hop]
  · next op hop => split <;> simp [hop]

theorem decode_eq_illegalOperand_iff (w : Word) :
    decode w = .error .illegalOperand ↔ ∃ op, opField w = opcodeBits op ∧ operandIllegal op w = true := by
  constructor
  · intro h
    unfold decode at h
    split at h
    · cases h
    · next op hop =>
      split at h
      · next hillegal => exact ⟨op, (opcodeBits_of_opcodeOf? _ _ hop).symm, hillegal⟩
      · cases h
  · rintro ⟨op, hop, hillegal⟩
    simp [decode, hop, opcodeOf?_opcodeBits, hillegal]

theorem operandIllegal_eq_true_iff (op : Opcode) (w : Word) :
    operandIllegal op w = true ↔ w &&& resvMask op (lenField w) ≠ 0 ∨ (op = .writeFrame ∧ lenField w = 0) := by
  simp [operandIllegal, or_comm]

end Sys2Proof

namespace Sys2Proof.Machine

/-- A CMD write of a word that is no command, at an idle machine out of reset, raises the decoder's error (R71). -/
theorem step_rejected {s : State} {w : Word} {rest : List HostAct} {e : DecodeError} (hr : s.env.rst = false)
    (hb : s.busy = false) (hi : s.env.inbox = .writeCmd w :: rest) (hd : decode w = .error e) :
    step s = .next ((s.setInbox rest).raiseError (errOfDecode e) w) := by
  rw [step_writeCmd hr hb hi, acceptWord_of_error hd]

/-- Settles O3: the decoder answers illegalOp where no opcode is assigned, and the step raises it. -/
theorem unassignedOpcodeRaisesIllegalOp : Obligations.UnassignedOpcodeRaisesIllegalOp := by
  intro w
  have hiff := (decode_eq_illegalOp_iff w).trans (opcodeOf?_eq_none_iff (opField w))
  exact ⟨hiff, fun s rest hr hb hi hop => step_rejected hr hb hi (hiff.mpr hop)⟩

/-- Settles O4: the decoder answers illegalOperand for an assigned opcode with illegal operands, and the step raises it. -/
theorem reservedBitRaisesIllegalOperand : Obligations.ReservedBitRaisesIllegalOperand := by
  intro w
  refine ⟨(decode_eq_illegalOperand_iff w).trans ?_, fun s rest hr hb hi hd => step_rejected hr hb hi hd⟩
  simp only [operandIllegal_eq_true_iff]
  rfl

/-- Settles O8: the four codes as they stand. -/
theorem errorCodes : Obligations.ErrorCodes := ⟨rfl, rfl, rfl, rfl⟩

/-! ## The strict step (R160) -/

theorem strictStep_of_fault {s t : State} {f : Fault} (h : step s = .next t) (hf : faultOf t.err = some f) :
    strictStep s = .fault f := by
  simp only [strictStep, h, hf]

theorem strictStep_of_no_fault {s t : State} (h : step s = .next t) (hf : faultOf t.err = none) :
    strictStep s = .next t := by
  simp only [strictStep, h, hf]

/-- Settles O20, by the code ERR ends with. -/
theorem overlapIsAFaultOfTheStrictStep : Obligations.OverlapIsAFaultOfTheStrictStep := by
  intro s t h
  refine ⟨fun hnone => ?_, fun hoverlap => ?_, fun hillegal => ?_⟩
  · exact strictStep_of_no_fault h ((faultOf_eq_none _).mpr (not_not.mp hnone))
  · exact strictStep_of_fault h (by rw [hoverlap]; rfl)
  · exact strictStep_of_fault h (by rcases hillegal with he | he <;> rw [he] <;> rfl)

/-! ## The acts HOST takes while a command runs (R155)

HOST's points take acts from the front of the inbox; of those only a CMD write reaches ERR. -/

/-- What an act at a point of a running command makes of ERR, if it does not assert RST (R152, R155). -/
def errMet (e : ErrCode) (a : HostAct) : ErrCode :=
  match a with
  | .writeCmd _ => if e = .none then .overlap else e
  | _ => e

theorem foldl_errMet_of_err {e : ErrCode} (he : e ≠ .none) (taken : List HostAct) : taken.foldl errMet e = e := by
  induction taken with
  | nil => rfl
  | cons a rest ih =>
    have hkeep : errMet e a = e := by
      cases a with
      | writeCmd w => exact if_neg he
      | _ => rfl
    rw [List.foldl_cons, hkeep, ih]

/-- A CMD write among the acts taken turns an ERR of 0 into OVERLAP (R155). -/
theorem foldl_errMet_of_write {taken : List HostAct} {w : Word} (hw : .writeCmd w ∈ taken) :
    taken.foldl errMet .none = .overlap := by
  induction taken with
  | nil => cases hw
  | cons a rest ih =>
    cases a with
    | writeCmd v => exact foldl_errMet_of_err (e := .overlap) nofun rest
    | _ => exact ih ((List.mem_cons.mp hw).resolve_left nofun)

/-- With a CMD write among the acts taken ERR is not 0, whatever it was (R152). -/
theorem foldl_errMet_ne_none {taken : List HostAct} {w : Word} (hw : .writeCmd w ∈ taken) (e : ErrCode) :
    taken.foldl errMet e ≠ .none := by
  by_cases he : e = .none
  · rw [he, foldl_errMet_of_write hw]
    nofun
  · rwa [foldl_errMet_of_err he]

/-- From `s` to `t` HOST's acts `taken` have been taken, and ERR is what they make of it. -/
def TookActs (s t : State) (taken : List HostAct) : Prop :=
  s.env.inbox = taken ++ t.env.inbox ∧ t.err = taken.foldl errMet s.err

theorem TookActs.trans {s t u : State} {l m : List HostAct} (h1 : TookActs s t l) (h2 : TookActs t u m) :
    TookActs s u (l ++ m) := by
  obtain ⟨hbox1, herr1⟩ := h1
  obtain ⟨hbox2, herr2⟩ := h2
  exact ⟨by rw [hbox1, hbox2, List.append_assoc], by rw [herr2, herr1, List.foldl_append]⟩

theorem tookActs_nil (s : State) : TookActs s s [] := ⟨rfl, rfl⟩

theorem hostPoint_writeCmd {s : State} {w : Word} {rest : List HostAct} (hb : s.busy = true)
    (hi : s.env.inbox = .writeCmd w :: rest) : s.hostPoint = (s.setInbox rest).raiseError .overlap w := by
  simp only [State.hostPoint, hi, State.hostAct, State.setInbox_busy, hb, if_true]

theorem raiseError_busy (s : State) (code : ErrCode) (w : Word) : (s.raiseError code w).busy = s.busy := by
  obtain ⟨-, heq⟩ | ⟨-, heq⟩ := raiseError_cases s code w
  · rw [heq, State.setErr_busy]
  · rw [heq]

theorem tookActs_raiseError {s : State} {w : Word} {rest : List HostAct} (hi : s.env.inbox = .writeCmd w :: rest) :
    TookActs s ((s.setInbox rest).raiseError .overlap w) [.writeCmd w] := by
  obtain ⟨he, heq⟩ | ⟨he, heq⟩ := raiseError_cases (s.setInbox rest) .overlap w
  · exact ⟨by rw [heq, hi]; rfl, by rw [heq]; exact (if_pos he).symm⟩
  · exact ⟨by rw [heq, hi]; rfl, by rw [heq]; exact (if_neg he).symm⟩

/-- A point of a running command takes at most one act, and the command goes on unless that asserts RST (R155, R172). -/
theorem hostPoint_tookActs {s : State} (hb : s.busy = true) :
    (s.hostPoint.busy = true ∧ ∃ taken, TookActs s s.hostPoint taken) ∨
      (s.hostPoint.busy = false ∧ s.hostPoint.env.rst = true) := by
  cases hi : s.env.inbox with
  | nil =>
    rw [hostPoint_quiet s hi]
    exact .inl ⟨hb, [], tookActs_nil s⟩
  | cons a rest =>
    cases a with
    | poll =>
      rw [hostPoint_poll hb hi]
      exact .inl ⟨hb, [], tookActs_nil s⟩
    | writeCmd w =>
      rw [hostPoint_writeCmd hb hi]
      exact .inl ⟨(raiseError_busy _ _ w).trans hb, _, tookActs_raiseError hi⟩
    | quiet | readStatus | readErrinfo =>
      simp only [State.hostPoint, hi]
      exact .inl ⟨hb, [_], hi, rfl⟩
    | setRst level =>
      simp only [State.hostPoint, hi]
      cases level with
      | false => exact .inl ⟨hb, [_], hi, rfl⟩
      | true => exact .inr ⟨rfl, rfl⟩

/-- A command that no reset ends has taken the acts that left the inbox, and its ERR is what they made of it. -/
theorem runOps_tookActs {ops : List MicroOp} {s : State} (hb : s.busy = true) (ht : (s.runOps ops).env.rst = false) :
    ∃ taken, TookActs s (s.runOps ops) taken := by
  induction ops generalizing s with
  | nil => exact ⟨[], rfl, rfl⟩
  | cons op rest ih =>
    rw [State.runOps] at ht ⊢
    obtain ⟨hb1, taken, htaken⟩ | ⟨hb1, hrst⟩ :=
      hostPoint_tookActs (s := s.setSeq { s.seq with phase := op :: rest }) hb
    · simp only [hb1, if_true] at ht ⊢
      obtain ⟨more, hbox, herr⟩ := ih ((runOp_busy _ op).trans hb1) ht
      rw [runOp_inbox] at hbox
      rw [runOp_err] at herr
      exact ⟨taken ++ more, TookActs.trans htaken ⟨hbox, herr⟩⟩
    · simp only [hb1, Bool.false_eq_true, if_false] at ht
      exact absurd (ht.symm.trans hrst) nofun

theorem exec_tookActs {i : Instr} {s t : State} (hx : exec i s = .next t) (ht : t.env.rst = false) :
    ∃ taken, TookActs s t taken := by
  rw [exec_eq_command i s (wellFormed_of_exec hx)] at hx
  injection hx with hx
  subst hx
  obtain ⟨-, -, -, herr, -, -, -, henv⟩ := prepared_frame i s
  have h := runOps_tookActs (s := (prepared i s).setBusy true) rfl ht
  simpa only [State.command, TookActs, State.setBusy_env, State.setBusy_err, herr, henv] using h

/-- Settles O55: the acts taken are those that left the inbox, and a CMD write among them leaves ERR not 0. -/
theorem everyOverlapFaultsTheStrictStep : Obligations.EveryOverlapFaultsTheStrictStep := by
  rintro s t c i acts taken hr hb hi hd hstep ht hacts ⟨w, hw⟩
  have hx : exec i (s.setInbox acts) = .next t := by
    rw [← hstep, step_writeCmd hr hb hi, acceptWord_of_ok hd]
  obtain ⟨taken', hbox, herr⟩ := exec_tookActs hx ht
  obtain rfl : taken = taken' := List.append_cancel_right (hacts.symm.trans hbox)
  constructor
  · have hmark : faultOf t.err ≠ none := fun h =>
      foldl_errMet_ne_none hw _ (herr.symm.trans ((faultOf_eq_none _).mp h))
    obtain ⟨f, hf⟩ := Option.ne_none_iff_exists'.mp hmark
    exact ⟨f, strictStep_of_fault hstep hf⟩
  · intro he
    have hoverlap : t.err = .overlap := by
      rw [herr, State.setInbox_err, he, foldl_errMet_of_write hw]
    exact strictStep_of_fault hstep (by rw [hoverlap]; rfl)

/-! ## The command in progress continues unchanged (R155) -/

/-- The state a command ends in where HOST's acts stay in the inbox. -/
def undisturbed (i : Instr) (s : State) : State :=
  ((moves i s).foldl State.runOp ((prepared i s).setBusy true)).complete

theorem undisturbed_err (i : Instr) (s : State) : (undisturbed i s).err = s.err := by
  obtain ⟨-, -, -, herr, -⟩ := prepared_frame i s
  exact (foldl_runOp_eq runOp_err _ _).trans herr

theorem undisturbed_errinfo (i : Instr) (s : State) : (undisturbed i s).errinfo = s.errinfo := by
  obtain ⟨-, -, -, -, hinfo, -⟩ := prepared_frame i s
  exact (foldl_runOp_eq runOp_errinfo _ _).trans hinfo

theorem undisturbed_rst (i : Instr) (s : State) : (undisturbed i s).env.rst = s.env.rst := by
  obtain ⟨-, -, -, -, -, -, -, henv⟩ := prepared_frame i s
  exact (foldl_runOp_eq (f := fun u => u.env.rst) runOp_rst _ _).trans (congrArg Env.rst henv)

theorem foldl_runOp_setInbox (ops : List MicroOp) (s : State) (acts : List HostAct) :
    ops.foldl State.runOp (s.setInbox acts) = (ops.foldl State.runOp s).setInbox acts :=
  List.foldl_hom (State.setInbox · acts) fun u op => runOp_setInbox u acts op

theorem undisturbed_setInbox (i : Instr) (s : State) (acts : List HostAct) :
    undisturbed i (s.setInbox acts) = (undisturbed i s).setInbox acts := by
  rw [undisturbed, moves_setInbox, prepared_setInbox]
  exact congrArg State.complete (foldl_runOp_setInbox (moves i s) ((prepared i s).setBusy true) acts)

/-- A command whose HOST does nothing ends undisturbed. -/
theorem exec_quiet {i : Instr} {s : State} (hw : WellFormed i) (hq : s.Quiet) : exec i s = .next (undisturbed i s) := by
  obtain ⟨-, -, -, -, -, -, -, henv⟩ := prepared_frame i s
  rw [exec_eq_command i s hw, command_quiet _ _ (by rwa [State.Quiet, henv])]
  rfl

/-- HOST's edits of an idle machine out of reset touch only what is HOST's. -/
theorem sameButHost_hostEdit {s : State} (hr : s.env.rst = false) (hp : s.seq.phase = []) (e : ErrCode) (w : Word)
    (i : List HostAct) (r : List HostRead) : SameButHost s (s.hostEdit e w i r false []) := by
  have h : SameButHost s (s.hostEdit e w i r s.env.rst s.seq.phase) := rfl
  rwa [hr, hp] at h

/-- A command that no reset ends has ended as it does undisturbed, but for what is HOST's; where it ends with ERR 0, the
error registers too are as undisturbed (R155). -/
theorem exec_sameButHost {i : Instr} {s t : State} {acts : List HostAct} (hx : exec i (s.setInbox acts) = .next t)
    (hs : s.env.rst = false) (ht : t.env.rst = false) :
    SameButHost (undisturbed i (s.setInbox [])) t ∧
      (t.err = .none →
        t.err = (undisturbed i (s.setInbox [])).err ∧ t.errinfo = (undisturbed i (s.setInbox [])).errinfo) := by
  obtain ⟨e, w, ib, r, b, heq, hb, hkeep, hnone⟩ | ⟨-, n, ib, r, -, heq⟩ := exec_cases i _ t hx
  · have hedit : t = (undisturbed i (s.setInbox [])).hostEdit e w ib r false [] :=
      calc t
        _ = (undisturbed i (s.setInbox acts)).hostEdit e w ib r b [] := heq
        _ = (undisturbed i (s.setInbox [])).hostEdit e w ib r false [] := by
          rw [hb hs, undisturbed_setInbox, undisturbed_setInbox]
          rfl
    rw [undisturbed_err, undisturbed_errinfo, hedit]
    refine ⟨sameButHost_hostEdit ((undisturbed_rst i (s.setInbox [])).trans hs) rfl e w ib r, fun he => ⟨?_, hnone he⟩⟩
    by_contra hse
    exact hse (hkeep fun hsn => hse (Eq.trans he hsn.symm)).1
  · rw [heq] at ht
    exact absurd ht nofun

theorem setRst_notMem_of_noReset {acts : List HostAct} (h : noReset acts = true) : .setRst true ∉ acts := fun hmem =>
  of_decide_eq_true (List.all_eq_true.mp h _ hmem) rfl

/-- Without an act that asserts it, RST stays low through a command. -/
theorem exec_rst {i : Instr} {s t : State} (hx : exec i s = .next t) (hs : s.env.rst = false)
    (hn : noReset s.env.inbox = true) : t.env.rst = false := by
  obtain ⟨e, w, ib, r, b, rfl, hb, -⟩ | ⟨hmem, -⟩ := exec_cases i s t hx
  · exact hb hs
  · exact absurd hmem (setRst_notMem_of_noReset hn)

/-- Settles O13: a point raises OVERLAP for the write, and without a reset the command ends as `undisturbed`. -/
theorem overlapLeavesTheCommandUndisturbed : Obligations.OverlapLeavesTheCommandUndisturbed := by
  refine ⟨fun s w rest => hostPoint_writeCmd, fun i s acts hw hr hn => ?_⟩
  obtain ⟨t, hx⟩ : ∃ t, exec i (s.setInbox acts) = .next t := ⟨_, exec_eq_command i _ hw⟩
  exact ⟨t, _, hx, exec_quiet hw rfl, (exec_sameButHost hx hr (exec_rst hx hr hn)).1⟩

/-- Settles O56: ERR would not be 0 with a CMD write among the acts taken, and being 0 it is as undisturbed. -/
theorem noErrorAtTheEndMeansNoOverlap : Obligations.NoErrorAtTheEndMeansNoOverlap := by
  intro i s t acts hs hx ht he
  obtain ⟨taken, hbox, herr⟩ := exec_tookActs hx ht
  obtain ⟨hsame, hkeep⟩ := exec_sameButHost hx hs ht
  obtain ⟨hcode, hinfo⟩ := hkeep he
  refine ⟨taken, _, hbox, fun w hw => ?_, exec_quiet (wellFormed_of_exec hx) rfl, ?_⟩
  · exact foldl_errMet_ne_none hw _ (herr.symm.trans he)
  · rw [SameButHost, hcode, hinfo] at hsame
    exact hsame.symm

/-! ## OVERLAP is recorded (R151, R155) -/

theorem moves_ne_nil (i : Instr) (s : State) : moves i s ≠ [] :=
  moves_induct (P := (· ≠ [])) (fun _ _ => List.cons_ne_nil _ _) (fun _ => List.cons_ne_nil _ _)
    (fun _ => List.cons_ne_nil _ _) (fun _ b ha _ => List.append_ne_nil_of_left_ne_nil ha b) i s

/-- A CMD write at the first point of a command that no reset ends is the error it ends with, where ERR was 0 (R152). -/
theorem runOps_records_overlap {ops : List MicroOp} {s : State} {w : Word} {rest : List HostAct} (hops : ops ≠ [])
    (hb : s.busy = true) (he : s.err = .none) (hi : s.env.inbox = .writeCmd w :: rest) (hn : noReset rest = true) :
    (s.runOps ops).err = .overlap ∧ (s.runOps ops).errinfo = w := by
  obtain ⟨op, ops, rfl⟩ := List.exists_cons_of_ne_nil hops
  have hpoint : (s.setSeq { s.seq with phase := op :: ops }).hostPoint =
      ((s.setSeq { s.seq with phase := op :: ops }).setInbox rest).setErr .overlap w :=
    (hostPoint_writeCmd (s := s.setSeq { s.seq with phase := op :: ops }) hb hi).trans (if_pos he)
  simp only [State.runOps, hpoint, State.setErr_busy, State.setInbox_busy, State.setSeq_busy, hb, if_true]
  obtain ⟨e, v, ib, r, b, heq, -, hkeep, -⟩ | ⟨hmem, -⟩ :=
    runOps_cases ops (State.runOp (((s.setSeq { s.seq with phase := op :: ops }).setInbox rest).setErr .overlap w) op)
      ((runOp_busy _ op).trans hb)
  · rw [runOp_err, runOp_errinfo] at hkeep
    rw [heq]
    exact hkeep nofun
  · rw [runOp_inbox] at hmem
    exact absurd hmem (setRst_notMem_of_noReset hn)

/-- Settles O12: every command has a first move, and the point before it takes the write. -/
theorem overlapIsRecorded : Obligations.OverlapIsRecorded := by
  intro i s w rest hw he hi hn
  obtain ⟨-, -, -, hperr, -, -, -, henv⟩ := prepared_frame i s
  refine ⟨_, exec_eq_command i s hw, runOps_not_busy _ _, ?_⟩
  exact runOps_records_overlap (moves_ne_nil i s) rfl (hperr.trans he) (henv ▸ hi) hn

end Sys2Proof.Machine

/-! PROOFS. The statements of the family 70_reset_and_hazards: RST abandons a running command, holds every element while it
is high, and an idle machine waits for HOST. -/

namespace Sys2Proof.Machine

/-! ## Reset during a command (R172) -/

theorem hostPoint_assertRst {s : State} {rest : List HostAct} (hi : s.env.inbox = .setRst true :: rest) :
    s.hostPoint = s.abandoned rest s.env.reads := by
  rw [State.hostPoint, hi]
  rfl

/-- RST at the first point of a command abandons it before its first move. -/
theorem runOps_assertRst {ops : List MicroOp} {s : State} {rest : List HostAct} (hops : ops ≠ [])
    (hi : s.env.inbox = .setRst true :: rest) : s.runOps ops = s.abandoned rest s.env.reads := by
  obtain ⟨op, ops, rfl⟩ := List.exists_cons_of_ne_nil hops
  rw [State.runOps, hostPoint_assertRst (s := s.setSeq { s.seq with phase := op :: ops }) hi]
  rfl

/-- A command under which RST has gone high was abandoned after the first `n` of its moves. -/
theorem exec_abandoned {i : Instr} {s t : State} (hx : exec i s = .next t) (hs : s.env.rst = false)
    (ht : t.env.rst = true) :
    ∃ n ib r, t = (((moves i s).take n).foldl State.runOp ((prepared i s).setBusy true)).abandoned ib r := by
  obtain ⟨e, w, ib, r, b, rfl, hb, -⟩ | ⟨-, n, ib, r, -, heq⟩ := exec_cases i s t hx
  · exact absurd ((hb hs).symm.trans ht) nofun
  · exact ⟨n, ib, r, heq⟩

/-- The moves of a command note no cut. -/
theorem cuts_foldl_runOp_prepared (ops : List MicroOp) (i : Instr) (s : State) :
    (ops.foldl State.runOp ((prepared i s).setBusy true)).env.cuts = s.env.cuts := by
  obtain ⟨-, -, -, -, -, -, -, henv⟩ := prepared_frame i s
  exact (foldl_runOp_eq (f := fun u => u.env.cuts) runOp_cuts ops _).trans (congrArg Env.cuts henv)

/-- The undisturbed command emits every event its moves emit, whatever the inbox held. -/
theorem trace_undisturbed_setInbox (i : Instr) (s : State) (acts : List HostAct) :
    (undisturbed i (s.setInbox acts)).trace = ((moves i s).foldl State.runOp ((prepared i s).setBusy true)).trace := by
  rw [undisturbed_setInbox]
  rfl

/-- Settles O15: the command was abandoned after some of its moves, whose events are the first of the undisturbed
command's; and as every command has a first move, RST at its first point comes before any of them. -/
theorem resetDuringACommandAbandonsIt : Obligations.ResetDuringACommandAbandonsIt := by
  constructor
  · intro i s t hx hs ht
    obtain ⟨⟨E, hE⟩, ⟨rest, hrest⟩⟩ := trace_exec_extends hx
    have hcfg := exec_cfg hx
    have hquiet := exec_quiet (s := s.setInbox []) (wellFormed_of_exec hx) rfl
    obtain ⟨n, ib, r, rfl⟩ := exec_abandoned hx hs ht
    have hcuts := cuts_foldl_runOp_prepared ((moves i s).take n) i s
    exact ⟨rfl, hcfg, congrArg (List.cons _) hcuts, _, E, rest, hquiet, hE.symm,
      (trace_undisturbed_setInbox i s []).trans hrest.symm⟩
  · intro i s rest hw hi
    obtain ⟨hcfg, -, -, -, -, -, -, henv⟩ := prepared_frame i s
    rw [exec_eq_command i s hw, State.command, runOps_assertRst (moves_ne_nil i s) (henv ▸ hi), State.abandoned,
      State.setBusy_cfg, State.setBusy_env, hcfg, henv]

/-! ## RST held high (R170) -/

theorem step_inReset {s : State} (hr : s.env.rst = true) : step s = .next s.toReset.hostPoint := if_pos hr

/-- HOST's point in reset leaves every element at its reset value, and adds no wire event. -/
theorem toReset_hostPoint (s : State) : ∃ e : Env, s.toReset.hostPoint = State.resetIn s.cfg e ∧ e.wire = s.env.wire := by
  obtain ⟨i, r, b, heq, -⟩ | ⟨i, heq⟩ := hostPoint_idle_edit s.toReset rfl
  · exact ⟨{ s.env with inbox := i, reads := r, rst := b }, heq, rfl⟩
  · exact ⟨_, heq, rfl⟩

/-- In reset a CMD write leaves the inbox, and does nothing else. -/
theorem toReset_hostPoint_writeCmd {s : State} {w : Word} {rest : List HostAct} (hi : s.env.inbox = .writeCmd w :: rest) :
    s.toReset.hostPoint = State.resetIn s.cfg { s.env with inbox := rest } := by
  have hbox : s.toReset.env.inbox = .writeCmd w :: rest := hi
  rw [State.hostPoint, hbox]
  rfl

/-- Settles O16, by the points of HOST in reset; a CMD write is one of them. -/
theorem resetHoldsEveryElement : Obligations.ResetHoldsEveryElement := by
  intro s hr
  obtain ⟨e, heq, hwire⟩ := toReset_hostPoint s
  exact ⟨_, (step_inReset hr).trans (congrArg _ heq), rfl, rfl, hwire, fun w rest hi =>
    heq.symm.trans (toReset_hostPoint_writeCmd hi)⟩

/-! ## An idle machine (R171) -/

/-- Settles O18: an idle machine's step without a CMD write is HOST's point, and that is quiet. -/
theorem idleMachineStaysAsItIs : Obligations.IdleMachineStaysAsItIs := by
  intro s hr hb hq
  have hstep : step s = .next s.hostPoint := by
    simp [step, State.stepOnce, hr, hb, hq]
  rw [hstep, hostPoint_quiet s hq]

end Sys2Proof.Machine
